-- ==== Sys2Proof/Word.lean ====
section
/-! DEFINITION. The widths the engine's registers have (10_state.md rules R14, R20 to R33). -/

namespace Sys2Proof

/-- One bit: a level of the line (R14, R20, R32). -/
abbrev Bit := BitVec 1

/-- A table index or an opcode (R27, R64, R76). -/
abbrev Nibble := BitVec 4

/-- A payload byte or a command word (R17, R76). -/
abbrev Byte := BitVec 8

/-- CFG_MIN_PULSES and CFG_COMP_US (R22, R23). -/
abbrev Half := BitVec 16

/-- A duration, a rate, X, CFG_IDLE_LIMIT, CAP_NUMIDLE (R14, R21, R25, R32). -/
abbrev Word := BitVec 32

/-- A Pulse packed in one word, level in bit 32 (R61); the width of the model's host read port. -/
abbrev PulseWord := BitVec 33

end Sys2Proof
end

