-- ==== Sys2Proof/Config.lean ====
section
/-! DEFINITION. What is fixed for the machine (00_scope.md rule R9), and the free values: opaque constants that nothing
can evaluate, one for each thing 93_implementation_defined.md calls `parameter` or `any value`. -/

namespace Sys2Proof

/-- One entry of a pulse train: the line has just changed TO `level`, and the interval that ended lasted `dur`
microseconds (R14). -/
structure Pulse where
  level : Bit
  dur   : Word
deriving DecidableEq, Repr, Inhabited

/-- The two readings of the divisions of DECODE (R117, R123). -/
inductive Arith where
  | exact
  | trunc
deriving DecidableEq, Repr

/-- `ARITH`: this hardware takes `exact` (R9, R123; log 14). -/
def Config.arith : Arith := Arith.exact

/-- `TRAIN_DEPTH` (R9, R41). -/
def Config.trainDepth : Nat := 256

/-- `PAY_MAX` (R9, R42). -/
def Config.payMax : Nat := 15

/-- `DUR_W`: durations saturate at `2 ^ durW - 1` (R9, R100). -/
def Config.durW : Nat := 32

/-- `PREAMBLE`, the entries DECODE drops (R9, R111). -/
def Config.preamble : Nat := 2

/-- `GROUP`, the entries that make one byte (R9, R112). -/
def Config.group : Nat := 16

/-- `IDLE_LIMIT`, the OPEN reset value of CFG_IDLE_LIMIT: some number from 0 to 2^32 - 2 (R21, D4, U1; log 3). -/
opaque Config.idleLimit : Fin 4294967295

/-- Free value: the level of the `k`-th sample the line draws by itself (R101, U15; log 2). -/
opaque Config.lineLevel : Nat → Bit

/-- Free value: the microseconds between the `k`-th drawn sample and the sample before it (R101, U15; log 2). -/
opaque Config.lineStep : Nat → Nat

/-- Free value: what the `k`-th host read of a buffer while BUSY = 1 returns (R36, U9; log 6). -/
opaque Config.busyRead : Nat → PulseWord

/-- Free value: TRAIN element `i` in the generation `g` of unspecified contents (U11; log 4). -/
opaque Config.trainFill (g i : Nat) : Pulse

/-- Free value: PAYLOAD element `i` in the generation `g` of unspecified contents (U11; log 4). -/
opaque Config.payFill (g i : Nat) : Byte

end Sys2Proof
end

