-- ==== Sys2Proof/Syntax.lean ====
section
/-! DEFINITION. The instructions: one constructor for each row of spec/opcode_table.json. -/

namespace Sys2Proof

/-- The six commands a host writes to CMD (R77) and the four symbols of the line frame (R65, R84). Only SELRATE carries an
operand in its word (R78). -/
inductive Instr where
  /-- `CAPTURE`, R90. -/
  | capture
  /-- `DECODE`, R110. -/
  | decode
  /-- `SNAP`, R131. -/
  | snap
  /-- `SELRATE idx`, R134: the table index, `CMD[3:0]`; 13 to 15 are reserved. -/
  | selrate (idx : Nibble)
  /-- `ENCODE`, R140. -/
  | encode
  /-- `VALIDATE`, R155. -/
  | validate
  /-- `LINE.START`, R65. -/
  | lineStart
  /-- `LINE.BIT0`, R65. -/
  | lineBit0
  /-- `LINE.BIT1`, R65. -/
  | lineBit1
  /-- `LINE.STOP`, R65. -/
  | lineStop
deriving DecidableEq, Repr

end Sys2Proof
end

