-- ==== Sys2Proof/WellFormed.lean ====
section
/-! DEFINITION. Which instructions are well formed: the one check is that SELRATE's index names a table entry (R64, R79). -/

namespace Sys2Proof

/-- SELRATE names one of the 13 table entries (R64, R135). A reserved index decodes (its word matches the row, R79) and the
command is then refused with CMD_ERR = 3. -/
def Instr.wellFormed : Instr → Bool
  | .selrate idx => decide (idx.toNat ≤ 12)
  | .capture => true
  | .decode => true
  | .snap => true
  | .encode => true
  | .validate => true
  | .lineStart => true
  | .lineBit0 => true
  | .lineBit1 => true
  | .lineStop => true

/-- The instruction has a command word (R77); the line symbols have none (R84). -/
def Instr.isCommand : Instr → Bool
  | .capture => true
  | .decode => true
  | .snap => true
  | .selrate _ => true
  | .encode => true
  | .validate => true
  | .lineStart => false
  | .lineBit0 => false
  | .lineBit1 => false
  | .lineStop => false

end Sys2Proof
end

