-- ==== Sys2Proof/Decode.lean ====
section
/-! DEFINITION. The two formats of spec/opcode_table.json and their encoders: the command word CMD (30_encoding.md rules R76
to R80) and the patterns of the line frame LINE (rules R65, R66, R71, R84). -/

namespace Sys2Proof

/-- Why a word is no command (R79). -/
inductive DecodeError where
  /-- Opcode 0x0 or 0x7 to 0xF: no operation has this code. -/
  | illegalOpcode (opcode : Nibble)
  /-- Opcode 0x1, 0x2, 0x3, 0x5 or 0x6 with an argument that is not 0. -/
  | nonZeroArgument (opcode arg : Nibble)
  /-- There is no byte to decode. -/
  | noWord
deriving DecidableEq, Repr

/-- `CMD[7:4]` (R76). -/
def opcodeField (w : Byte) : Nibble := w.extractLsb' 4 4

/-- `CMD[3:0]` (R76, R78). -/
def argumentField (w : Byte) : Nibble := w.extractLsb' 0 4

/-- A row whose argument must be 0 (R77, R79). -/
def noArgument (i : Instr) (w : Byte) : Except DecodeError Instr :=
  if argumentField w = 0 then .ok i else .error (.nonZeroArgument (opcodeField w) (argumentField w))

/-- The opcode map (R77). -/
def decodeCmd (w : Byte) : Except DecodeError Instr :=
  if opcodeField w = 0x1 then noArgument .capture w
  else if opcodeField w = 0x2 then noArgument .decode w
  else if opcodeField w = 0x3 then noArgument .snap w
  else if opcodeField w = 0x4 then .ok (.selrate (argumentField w))
  else if opcodeField w = 0x5 then noArgument .encode w
  else if opcodeField w = 0x6 then noArgument .validate w
  else .error (.illegalOpcode (opcodeField w))

/-- Decode the first command word of a run of bytes; every command is one byte (R76). -/
def decodeBytes : List Byte → Except DecodeError (Instr × List Byte)
  | [] => .error .noWord
  | w :: rest => (decodeCmd w).map fun i => (i, rest)

/-- What the host's check asks: the command read from the table word `w` of `nbits` bits. Every command has 8 bits (R76); no
command has another length, and the line symbols are no command words (R84; log 10). -/
def decodeTableWord (nbits w : Nat) : Option Instr :=
  if nbits = 8 ∧ w < 256 then
    match decodeBytes [BitVec.ofNat 8 w] with
    | .ok (i, _) => some i
    | .error _ => none
  else none

/-- Opcode and argument laid out as a command word (R76). -/
def commandOf (opcode arg : Nibble) : Byte := opcode ++ arg

/-- The command word of an instruction; a line symbol has none (R77, R84). -/
def encodeCmd : Instr → Option Byte
  | .capture => some (commandOf 0x1 0)
  | .decode => some (commandOf 0x2 0)
  | .snap => some (commandOf 0x3 0)
  | .selrate idx => some (commandOf 0x4 idx)
  | .encode => some (commandOf 0x5 0)
  | .validate => some (commandOf 0x6 0)
  | .lineStart => none
  | .lineBit0 => none
  | .lineBit1 => none
  | .lineStop => none

/-- `match` of an instruction's row (R77); the line rows have none. -/
def rowMatch : Instr → Byte
  | .capture => 0x10
  | .decode => 0x20
  | .snap => 0x30
  | .selrate _ => 0x40
  | .encode => 0x50
  | .validate => 0x60
  | .lineStart => 0
  | .lineBit0 => 0
  | .lineBit1 => 0
  | .lineStop => 0

/-- `mask` of an instruction's row (R77); the line rows have none. -/
def rowMask : Instr → Byte
  | .capture => 0xFF
  | .decode => 0xFF
  | .snap => 0xFF
  | .selrate _ => 0xF0
  | .encode => 0xFF
  | .validate => 0xFF
  | .lineStart => 0
  | .lineBit0 => 0
  | .lineBit1 => 0
  | .lineStop => 0

/-- Symbol periods of carrier on in a line symbol (R65); a command is no symbol. -/
def markPeriods : Instr → Nat
  | .lineStart => 8
  | .lineBit0 => 1
  | .lineBit1 => 1
  | .lineStop => 1
  | .capture => 0
  | .decode => 0
  | .snap => 0
  | .selrate _ => 0
  | .encode => 0
  | .validate => 0

/-- Symbol periods of carrier off after the mark of a line symbol (R65). -/
def spacePeriods : Instr → Nat
  | .lineStart => 3
  | .lineBit0 => 1
  | .lineBit1 => 3
  | .lineStop => 1
  | .capture => 0
  | .decode => 0
  | .snap => 0
  | .selrate _ => 0
  | .encode => 0
  | .validate => 0

/-- The pattern of a line symbol, one element per symbol period, `true` for carrier on (R65, R84). -/
def linePattern (i : Instr) : List Bool :=
  List.replicate (markPeriods i) true ++ List.replicate (spacePeriods i) false

/-- The bits of a byte in the order they go on the line, least significant first (R71). -/
def byteBits (b : Byte) : List Bool := (List.range 8).map fun k => b.getLsbD k

/-- The data bits of a payload in line order: byte 0 first (R68, R71). -/
def payloadBits (p : List Byte) : List Bool := p.flatMap byteBits

/-- The symbol of a data bit (R65). -/
def bitSymbol (b : Bool) : Instr := if b then .lineBit1 else .lineBit0

/-- The frame of a payload: START, the data symbols, STOP (R66). -/
def frameSymbols (p : List Byte) : List Instr :=
  .lineStart :: ((payloadBits p).map bitSymbol ++ [.lineStop])

/-- The carrier pattern of a run of symbols. -/
def symbolsPattern (l : List Instr) : List Bool := l.flatMap linePattern

/-- Read data symbols and the closing STOP. STOP and BIT0 have one pattern; the last symbol is STOP (R65). -/
def parseSymbols : List Bool → Option (List Instr)
  | [true, false] => some [.lineStop]
  | true :: false :: false :: false :: rest => (parseSymbols rest).map (.lineBit1 :: ·)
  | true :: false :: rest => (parseSymbols rest).map (.lineBit0 :: ·)
  | _ => none

/-- Read a whole frame from its carrier pattern: the START symbol, then data symbols, then STOP (R65, R66, R84). The spec gives no
procedure; that any number of data symbols is read, whole bytes or not, is the model's choice (log 21). -/
def parseFrame (l : List Bool) : Option (List Instr) :=
  if l.take 11 = linePattern .lineStart then (parseSymbols (l.drop 11)).map (.lineStart :: ·) else none

end Sys2Proof
end

