-- ==== Sys2Proof/Machine/State.lean ====
section
/-! DEFINITION. The engine's state as plain data (10_state.md rule R13), what the environment may still do, the state after
reset, and the reasons a step can stop. -/

namespace Sys2Proof.Machine

/-- Why a step stops. No operation of the engine faults: every condition of R181 is a value in a result field. -/
inductive Fault where
  /-- Raised by a host read of an element of TRAIN or PAYLOAD that does not exist (R41, R42, R48). Safe: the machine stops
  where the hardware might answer something (log 13). -/
  | noSuchElement (index : Nat)
deriving DecidableEq, Repr

/-- Why an instruction has no meaning. -/
inductive Refusal where
  /-- Raised by an arm of exec for an instruction not modelled yet. Safe. No arm raises it: every row has its meaning. -/
  | notModelled (mnemonic : String)
deriving DecidableEq, Repr

/-- `CMD_ERR` (R26). -/
inductive CmdErr where
  | accepted
  | illegal
  | rejectedBusy
  | badArg
deriving DecidableEq, Repr

/-- `CAP_RESULT` (R28). -/
inductive CapResult where
  | none
  | ok
  | tooShort
  | overflow
deriving DecidableEq, Repr

/-- `DEC_RESULT` (R29). -/
inductive DecResult where
  | none
  | ok
  | noGroup
  | zeroThreshold
deriving DecidableEq, Repr

/-- `ENC_RESULT` (R30). -/
inductive EncResult where
  | none
  | ok
  | zeroRate
  | periodUnderflow
deriving DecidableEq, Repr

/-- `CHK_RESULT` (R31). -/
inductive ChkResult where
  | none
  | matched
  | mismatch
  | empty
deriving DecidableEq, Repr

/-- `CAP_STATE`: `C_IDLE`, `C_WAIT`, `C_RUN` (R32). -/
inductive CapState where
  | idle
  | wait
  | run
deriving DecidableEq, Repr

/-- `ENC_PHASE` (R33). -/
inductive EncPhase where
  | idle
  | startMark
  | startGap
  | bitMark
  | bitGap
  | stopMark
  | stopGap
deriving DecidableEq, Repr

/-- The conditions the engine reports (R181). `InvalidFieldValue` is BUILD's return value and no state of the engine. -/
inductive Condition where
  | captureTooShort
  | captureOverflow
  | frameLengthWarning
  | decodeNoGroup
  | decodeZeroThreshold
  | encodeZeroRate
  | encodePeriodUnderflow
  | checksumMismatch
  | checksumEmpty
  | illegalCommand
  | rejectedBusy
  | badArgument
deriving DecidableEq, Repr

/-- What the output primitive is asked for: carrier on, or carrier off (R33, R141). -/
inductive EmitKind where
  | carrier
  | gap
deriving DecidableEq, Repr

/-- One emission event `(kind, d)`, `d` an exact rational number of microseconds (R33, R143). -/
structure Emission where
  kind : EmitKind
  dur  : Rat
deriving DecidableEq, Repr

/-- A host write of one register other than CMD; the registers of R36 that the host may write and no others. -/
inductive HostWrite where
  | cfgIdleLevel (v : Bit)
  | cfgIdleLimit (v : Word)
  | cfgMinPulses (v : Half)
  | cfgCompUs (v : Half)
  | cfgStopRem (v : Nibble)
  | trainEntry (i : Nat) (p : Pulse)
  | trainLen (n : Nat)
  | payByte (i : Nat) (b : Byte)
  | payLen (n : Nat)
  | baud (v : Word)
  | x (v : Word)
deriving DecidableEq, Repr

/-- A host read of one register; the registers of R36 that the host may read and no others. -/
inductive HostRead where
  | cfgIdleLevel
  | cfgIdleLimit
  | cfgMinPulses
  | cfgCompUs
  | cfgStopRem
  | trainEntry (i : Nat)
  | trainLen
  | payByte (i : Nat)
  | payLen
  | baud
  | baudIdx
  | x
  | cmdErr
  | busy
  | opActive
  | capResult
  | decResult
  | decWarnLen
  | encResult
  | chkResult
  | chkCalc
  | chkRecv
deriving DecidableEq, Repr

/-- One move of one of the agents (R11; log 1). -/
inductive Event where
  /-- The host writes a word to CMD (R26, R76). -/
  | command (w : Byte)
  /-- The host writes another register (R36, R39). -/
  | write (r : HostWrite)
  /-- The host reads a register (R36). -/
  | read (r : HostRead)
  /-- The line gives a sample of level `v`, `dt` microseconds after the sample before it (R101; log 12). -/
  | sample (v : Bit) (dt : Nat)
  /-- The engine goes on by itself: ENC's next event, or one more sample for CAP, drawn freely (R148, R101; log 2). -/
  | engine
  /-- The reset input is asserted (R200). -/
  | reset
deriving DecidableEq, Repr

/-- A buffer: pairs of an element's index and its content, the indices strictly rising. An element that is not listed is
unspecified (U11; log 4). -/
abbrev Memory (α : Type) := List (Nat × α)

/-- Everything the engine remembers (R13), and the model's own fields at the end. -/
structure State where
  /-- `CFG_IDLE_LEVEL`, R20. -/
  cfgIdleLevel : Bit
  /-- `CFG_IDLE_LIMIT`, R21. -/
  cfgIdleLimit : Word
  /-- `CFG_MIN_PULSES`, R22. -/
  cfgMinPulses : Half
  /-- `CFG_COMP_US`, R23. -/
  cfgCompUs : Half
  /-- `CFG_STOP_REM`, R24. -/
  cfgStopRem : Nibble
  /-- `TRAIN`, R25, R41. -/
  train : Memory Pulse
  /-- `TRAIN_LEN`, R25. -/
  trainLen : Nat
  /-- `PAYLOAD`, R25, R42. -/
  payload : List Host.Cell
  /-- `PAY_LEN`, R25. -/
  payLen : Nat
  /-- `BAUD`, R25. -/
  baud : Word
  /-- `BAUD_IDX`, R25, R64. -/
  baudIdx : Nibble
  /-- `X`, R25. -/
  x : Word
  /-- `CMD`, R26: the last word accepted (log 8). -/
  cmd : Byte
  /-- `CMD_ERR`, R26. -/
  cmdErr : CmdErr
  /-- `BUSY`, R27. -/
  busy : Bool
  /-- `OP_ACTIVE`, R27. -/
  opActive : Nibble
  /-- `CAP_RESULT`, R28. -/
  capResult : CapResult
  /-- `DEC_RESULT`, R29. -/
  decResult : DecResult
  /-- `DEC_WARN_LEN`, R29. -/
  decWarnLen : Bool
  /-- `ENC_RESULT`, R30. -/
  encResult : EncResult
  /-- `CHK_RESULT`, R31. -/
  chkResult : ChkResult
  /-- `CHK_CALC`, R31. -/
  chkCalc : Byte
  /-- `CHK_RECV`, R31. -/
  chkRecv : Byte
  /-- `CAP_STATE`, R32. -/
  capState : CapState
  /-- `CAP_T0`, R32. -/
  capT0 : Nat
  /-- `CAP_NUMIDLE`, R32. -/
  capNumIdle : Word
  /-- `CAP_PREV`, R32. -/
  capPrev : Bit
  /-- `CAP_OVF`, R32. -/
  capOvf : Bool
  /-- `OUT`, R33: oldest event first. -/
  out : List Emission
  /-- `ENC_PHASE`, R33. -/
  encPhase : EncPhase
  /-- `ENC_BYTE`, R33. -/
  encByte : Nat
  /-- `ENC_BIT`, R33. -/
  encBit : Fin 8
  /-- `ENC_PERIOD`, R33, R143. -/
  encPeriod : Rat
  /-- The model's: the moves the environment still makes, next first (log 1). -/
  agenda : List Event
  /-- The model's: the time of the latest sample, in microseconds (log 12). -/
  now : Nat
  /-- The model's: the value the latest host read returned (log 18). -/
  hostData : PulseWord
  /-- The model's: how many free values have been drawn (log 2). -/
  draws : Nat
  /-- The model's: the generation of TRAIN's unspecified contents (log 4). -/
  trainGen : Nat
  /-- The model's: the generation of PAYLOAD's unspecified contents (log 4). -/
  payGen : Nat
  /-- The model's: the events emitted before the latest reset (log 9). -/
  past : List Emission
deriving DecidableEq, Repr

/-- The state right after reset (R37, R201). Hidden registers the spec leaves unspecified are 0 (log 7), CMD is 0 (log 8), the
model's own fields are 0 or empty (log 17). -/
def State.reset : State where
  cfgIdleLevel := 1
  cfgIdleLimit := BitVec.ofNat 32 Config.idleLimit.val
  cfgMinPulses := 19
  cfgCompUs := 100
  cfgStopRem := 1
  train := []
  trainLen := 0
  payload := []
  payLen := 0
  baud := 0
  baudIdx := 0
  x := 0
  cmd := 0
  cmdErr := .accepted
  busy := false
  opActive := 0
  capResult := .none
  decResult := .none
  decWarnLen := false
  encResult := .none
  chkResult := .none
  chkCalc := 0
  chkRecv := 0
  capState := .idle
  capT0 := 0
  capNumIdle := 0
  capPrev := 0
  capOvf := false
  out := []
  encPhase := .idle
  encByte := 0
  encBit := 0
  encPeriod := 0
  agenda := []
  now := 0
  hostData := 0
  draws := 0
  trainGen := 0
  payGen := 0
  past := []

end Sys2Proof.Machine
end

