-- ==== Sys2Proof/Machine/Ops.lean ====
section
/-! DEFINITION. The named operations on buffers and registers, reporting a condition (60_exceptions.md rules R181, R189), and
accepting and completing a command (30_encoding.md rule R83). -/

namespace Sys2Proof.Machine

/-- The three outcomes of a step of this machine. -/
abbrev Outcome := Host.Outcome State Fault Refusal

/-- The canonical form of a buffer: the indices strictly rise. -/
def Memory.wf {α : Type} : Memory α → Bool
  | [] => true
  | [_] => true
  | (i, _) :: (j, v) :: m => decide (i < j) && Memory.wf ((j, v) :: m)

/-- What element `i` is listed with, if anything. -/
def Memory.read? {α : Type} : Memory α → Nat → Option α
  | [], _ => none
  | (k, v) :: m, i => if i = k then some v else Memory.read? m i

/-- Give element `i` a content, keeping the indices in order. -/
def Memory.write {α : Type} : Memory α → Nat → α → Memory α
  | [], i, v => [(i, v)]
  | (k, u) :: m, i, v =>
    if i < k then (i, v) :: (k, u) :: m
    else if i = k then (i, v) :: m
    else (k, u) :: Memory.write m i v

/-- A buffer that holds the elements of a list from index `i` on. -/
def Memory.ofListFrom {α : Type} : Nat → List α → Memory α
  | _, [] => []
  | i, v :: l => (i, v) :: Memory.ofListFrom (i + 1) l

/-- `MemRead(TRAIN, i)` (R12, R44); an element with no content is a free value (U11; log 4). -/
def readTrain (s : State) (i : Nat) : Pulse :=
  (Memory.read? s.train i).getD (Config.trainFill s.trainGen i)

/-- `MemRead(PAYLOAD, i)` (R12, R44); an element with no content is a free value (U11; log 4). -/
def readPayload (s : State) (i : Nat) : Byte :=
  (Memory.read? s.payload i).getD (Config.payFill s.payGen i)

/-- `MemWrite(TRAIN, i, p)` (R12, R44). -/
def writeTrain (i : Nat) (p : Pulse) (s : State) : State :=
  { s with train := Memory.write s.train i p }

/-- `MemWrite(PAYLOAD, i, b)` (R12, R44). -/
def writePayload (i : Nat) (b : Byte) (s : State) : State :=
  { s with payload := Memory.write s.payload i b }

/-- `TRAIN_LEN <- 0`: no element belongs to the train, so every content is unspecified from here on (U11; log 5). -/
def emptyTrain (s : State) : State :=
  { s with train := [], trainLen := 0, trainGen := s.draws + 1, draws := s.draws + 1 }

/-- PAYLOAD holds exactly these bytes; what lies beyond them is unspecified (R121, U11; log 5). -/
def storePayload (p : List Byte) (s : State) : State :=
  { s with payload := Memory.ofListFrom 0 p, payLen := p.length, payGen := s.draws + 1, draws := s.draws + 1 }

/-- `raise <Condition>` (R189): write the code to its result field, and the further registers R181 names. -/
def raise (c : Condition) (s : State) : State :=
  match c with
  | .captureTooShort => { emptyTrain s with capResult := .tooShort }
  | .captureOverflow => { emptyTrain s with capResult := .overflow }
  | .frameLengthWarning => { s with decWarnLen := true }
  | .decodeNoGroup => { s with decResult := .noGroup, payLen := 0 }
  | .decodeZeroThreshold => { s with decResult := .zeroThreshold, payLen := 0 }
  | .encodeZeroRate => { s with encResult := .zeroRate }
  | .encodePeriodUnderflow => { s with encResult := .periodUnderflow }
  | .checksumMismatch => { s with chkResult := .mismatch }
  | .checksumEmpty => { s with chkResult := .empty, chkCalc := 0, chkRecv := 0 }
  | .illegalCommand => { s with cmdErr := .illegal }
  | .rejectedBusy => { s with cmdErr := .rejectedBusy }
  | .badArgument => { s with cmdErr := .badArg }

/-- A legal command is accepted (R83): `CMD_ERR <- 0`, `OP_ACTIVE <- CMD[7:4]`, `BUSY <- 1`. -/
def accept (w : Byte) (s : State) : State :=
  { s with cmd := w, cmdErr := .accepted, opActive := opcodeField w, busy := true }

/-- An operation completes (R83, R189): `BUSY <- 0`. Nothing was saved and nothing is restored (R190). -/
def complete (s : State) : State := { s with busy := false }

/-- `emit(kind, d)`: append an event to OUT (R12, R33). -/
def emit (k : EmitKind) (d : Rat) (s : State) : State :=
  { s with out := s.out ++ [{ kind := k, dur := d }] }

end Sys2Proof.Machine
end

