-- ==== Sys2Proof/Machine/Operands.lean ====
section
/-! DEFINITION. Where the operations find their operands: the command word's argument, the constant table LUT
(30_encoding.md rule R63, 42_baud_lut.md rule R130), the view of the train DECODE analyses (41_decode.md rules R111, R112,
R115) and the valid bytes of the payload (20_memory.md rule R42). -/

namespace Sys2Proof.Machine

/-- `LUT[0 .. 12]` (R63, R130). -/
def lut : List Nat := [110, 300, 600, 1200, 2400, 4800, 9600, 14400, 19200, 38400, 57600, 115200, 128000]

/-- `MemRead(LUT, i)` (R43). -/
def readLut (i : Nat) : Nat := lut.getD i 0

/-- Whether the argument of a command is one its operation takes; only SELRATE has one that may not be (R79, R135). -/
def argumentLegal : Instr → Bool
  | .selrate idx => decide (idx.toNat < lut.length)
  | .capture => true
  | .decode => true
  | .snap => true
  | .encode => true
  | .validate => true
  | .lineStart => true
  | .lineBit0 => true
  | .lineBit1 => true
  | .lineStop => true

/-- The command word of an instruction, 0 for the line symbols, which have none (R77, R84). -/
def commandWord (i : Instr) : Byte := (encodeCmd i).getD 0

/-- `ACTIVE = 1 - CFG_IDLE_LEVEL` (R20, R90). -/
def activeLevel (s : State) : Bit := 1 - s.cfgIdleLevel

/-- `m`, the length of the train after the preamble (R111). -/
def remainingLen (s : State) : Nat := s.trainLen - Config.preamble

/-- `n`, the length of the analysed region: whole groups only (R112). -/
def analysedLen (s : State) : Nat := Config.group * (remainingLen s / Config.group)

/-- `rem[i].dur`; DECODE reads no level (R111, R124). -/
def remDur (s : State) (i : Nat) : Nat := (readTrain s (i + Config.preamble)).dur.toNat

/-- `PAYLOAD[0 .. PAY_LEN-1]` in index order (R42). -/
def payloadBytes (s : State) : List Byte := (List.range s.payLen).map (readPayload s)

/-- `PAYLOAD[ENC_BYTE][ENC_BIT]` (R148, R178). -/
def encodeBit (s : State) : Bool := (readPayload s s.encByte).getLsbD s.encBit.val

end Sys2Proof.Machine
end

