-- ==== Sys2Proof/Machine/Flags.lean ====
section
/-! DEFINITION. The result codes as a host reads them (10_state.md rules R26 to R31) and the tests behind the flags and
conditions: the frame-length warning (R113), the zero threshold (R122, R123), the long or short decision (R120, R123), the
conditions of ENCODE (R144), the checksum (R156). -/

namespace Sys2Proof.Machine

/-- `CMD_ERR`'s codes (R26). -/
def CmdErr.code : CmdErr → BitVec 2
  | .accepted => 0
  | .illegal => 1
  | .rejectedBusy => 2
  | .badArg => 3

/-- `CAP_RESULT`'s codes (R28). -/
def CapResult.code : CapResult → BitVec 2
  | .none => 0
  | .ok => 1
  | .tooShort => 2
  | .overflow => 3

/-- `DEC_RESULT`'s codes (R29). -/
def DecResult.code : DecResult → BitVec 2
  | .none => 0
  | .ok => 1
  | .noGroup => 2
  | .zeroThreshold => 3

/-- `ENC_RESULT`'s codes (R30). -/
def EncResult.code : EncResult → BitVec 2
  | .none => 0
  | .ok => 1
  | .zeroRate => 2
  | .periodUnderflow => 3

/-- `CHK_RESULT`'s codes (R31). -/
def ChkResult.code : ChkResult → BitVec 2
  | .none => 0
  | .matched => 1
  | .mismatch => 2
  | .empty => 3

/-- `FrameLengthWarning`: the remainder is not the expected one (R113). -/
def frameLengthWrong (s : State) : Bool := remainingLen s % Config.group != s.cfgStopRem.toNat

/-- `S`, the sum of the marks of the analysed region (R116). -/
def markSum (s : State) : Nat :=
  ((List.range (analysedLen s / 2)).map fun j => remDur s (2 * j)).sum

/-- The divisor of the truncating mode (R123). -/
def truncDivisor (n : Nat) : Nat := n / 2 - 2

/-- The threshold is 0 (R122 for `exact`, R123 for `trunc`). -/
def thresholdZero (a : Arith) (n S : Nat) : Bool :=
  match a with
  | .exact => decide (S = 0)
  | .trunc => decide (S / truncDivisor n = 0)

/-- `possibleBaud` (R118 for `exact`, half up, in its closed form in naturals; R123 for `trunc`). -/
def possibleBaud (a : Arith) (n S : Nat) : Nat :=
  match a with
  | .exact => (1000000 * (n - 3) + S) / (2 * S)
  | .trunc => 1000000 / (S / truncDivisor n)

/-- A data-bearing duration is at or above the effective threshold (R120 for `exact`, cross-multiplied; R123 for `trunc`). -/
def isLong (a : Arith) (n S dur : Nat) : Bool :=
  match a with
  | .exact => decide (3 * S ≤ dur * (n - 3))
  | .trunc => decide (3 * (S / truncDivisor n) ≤ 2 * dur)

/-- `1_000_000 - CFG_COMP_US * BAUD`, the one signed intermediate of the engine (R143, R175). -/
def periodNumerator (s : State) : Int := 1000000 - (s.cfgCompUs.toNat : Int) * (s.baud.toNat : Int)

/-- The sum of all bytes but the last, modulo 256 (R156). -/
def checksum (p : List Byte) : Byte := p.dropLast.foldl (· + ·) 0

end Sys2Proof.Machine
end

