-- ==== Sys2Proof/Machine/Issue.lean ====
section
/-! DEFINITION. Issuing a command (30_encoding.md rules R79, R83; 60_exceptions.md rules R187, R188): the one place that says
when a command is accepted and what its refusal leaves. -/

namespace Sys2Proof.Machine

/-- A command is written to CMD: lost if the engine is busy, refused if its argument is reserved, else accepted, and `body`
runs on the state right after acceptance. The order of the tests is R188's; an illegal word never gets here. -/
def issue (i : Instr) (body : State → State) (s : State) : Outcome :=
  if s.busy then .next (raise .rejectedBusy s)
  else if argumentLegal i then .next (body (accept (commandWord i) s))
  else .next (raise .badArgument s)

/-- A command that completes in the step that accepts it (R83, R126). -/
def issueOneStep (i : Instr) (body : State → State) (s : State) : Outcome :=
  issue i (fun t => complete (body t)) s

end Sys2Proof.Machine
end

