-- ==== Sys2Proof/Machine/BaudLut.lean ====
section
/-! DEFINITION. SNAP and SELRATE: the nearest-value selector and the rate multiplexer (42_baud_lut.md). -/

namespace Sys2Proof.Machine

/-- `|a - b|` on naturals, with no signed intermediate (R131, R175). -/
def absDiff (a b : Nat) : Nat := max a b - min a b

/-- One comparison of the scan: a later entry replaces the best only on a strictly smaller distance (R131, R132). -/
def nearestStep (x : Nat) (best : Nat × Nat) (i : Nat) : Nat × Nat :=
  if absDiff x (readLut i) < best.2 then (i, absDiff x (readLut i)) else best

/-- The index `Nearest(x)` chooses (R131). -/
def nearestIdx (x : Nat) : Nat :=
  ((List.range' 1 12).foldl (nearestStep x) (0, absDiff x (readLut 0))).1

/-- `BAUD <- LUT[idx] ; BAUD_IDX <- idx` (R119, R131, R134). -/
def selectRate (idx : Nat) (s : State) : State :=
  { s with baud := BitVec.ofNat 32 (readLut idx), baudIdx := BitVec.ofNat 4 idx }

/-- SNAP's effect (R131). -/
def snapRate (s : State) : State := selectRate (nearestIdx s.x.toNat) s

/-- `SNAP` (R131). -/
def execSnap (s : State) : Outcome := issueOneStep .snap snapRate s

/-- `SELRATE idx` (R134), refused with CMD_ERR = 3 for 13 to 15 (R135). -/
def execSelrate (idx : Nibble) (s : State) : Outcome :=
  issueOneStep (.selrate idx) (selectRate idx.toNat) s

end Sys2Proof.Machine
end

