-- ==== Sys2Proof/Machine/Capture.lean ====
section
/-! DEFINITION. CAPTURE: the edge-timing accumulator and its FSM (40_capture.md). -/

namespace Sys2Proof.Machine

/-- Issue of CAPTURE (R91). -/
def captureStart (s : State) : State :=
  { emptyTrain s with capResult := .none, capOvf := false, capState := .wait }

/-- `CAPTURE` (R90, R91). The capture then takes one step per sample. -/
def execCapture (s : State) : Outcome := issue .capture captureStart s

/-- The active sample that ends the wait starts the run and is consumed by it (R93). -/
def startRun (t : Nat) (s : State) : State :=
  { s with capT0 := t, capNumIdle := 0, capPrev := activeLevel s, capState := .run }

/-- The duration stored for an interval that ends at `t`: it saturates (R94, R100). -/
def capturedDur (t0 t : Nat) : Word := BitVec.ofNat 32 (min (t - t0) (2 ^ Config.durW - 1))

/-- Edge detection and append (R94, R99). -/
def captureEdge (v : Bit) (t : Nat) (s : State) : State :=
  if v = s.capPrev then s
  else if s.trainLen < Config.trainDepth then
    { writeTrain s.trainLen { level := v, dur := capturedDur s.capT0 t } s with
      trainLen := s.trainLen + 1, capT0 := t }
  else { s with capOvf := true, capT0 := t }

/-- The idle counter (R95). -/
def countIdle (v : Bit) (s : State) : State :=
  { s with capNumIdle := if v = s.cfgIdleLevel then s.capNumIdle + 1 else 0 }

/-- Completion: overflow first, then the minimum length (R98, R188). That CAP_T0, CAP_NUMIDLE, CAP_PREV and CAP_OVF keep their
last values from here until the next CAPTURE (U25: any value) is the model's choice (log 7). -/
def captureFinish (s : State) : State :=
  let r :=
    if s.capOvf then raise .captureOverflow s
    else if s.cfgMinPulses.toNat ≤ s.trainLen then { s with capResult := .ok }
    else raise .captureTooShort s
  complete { r with capState := .idle }

/-- One sample of the run: edge, idle counter, termination test, previous value, in this order (R94 to R97). -/
def captureRun (v : Bit) (t : Nat) (s : State) : State :=
  let r := countIdle v (captureEdge v t s)
  if r.cfgIdleLimit.toNat < r.capNumIdle.toNat then captureFinish r else { r with capPrev := v }

/-- One sample `(v, t)` at the input port (R92, R93, R106). In C_IDLE it has no effect. -/
def captureSample (v : Bit) (t : Nat) (s : State) : State :=
  match s.capState with
  | .idle => s
  | .wait => if v = activeLevel s then startRun t s else s
  | .run => captureRun v t s

/-- The line gives a sample `dt` microseconds after the one before it (R101; log 12). -/
def lineSample (v : Bit) (dt : Nat) (s : State) : State :=
  captureSample v (s.now + dt) { s with now := s.now + dt }

/-- A sample the environment did not fix: level and spacing are free values (R101, U15; log 2). -/
def drawSample (s : State) : State :=
  lineSample (Config.lineLevel s.draws) (Config.lineStep s.draws) { s with draws := s.draws + 1 }

end Sys2Proof.Machine
end

