-- ==== Sys2Proof/Machine/Checksum.lean ====
section
/-! DEFINITION. VALIDATE: the additive checksum comparator (44_checksum.md). -/

namespace Sys2Proof.Machine

/-- Both checksum registers and the result of their comparison (R156, R157). -/
def compareChecksum (s : State) : State :=
  let r := { s with chkCalc := checksum (payloadBytes s), chkRecv := readPayload s (s.payLen - 1) }
  if r.chkCalc = r.chkRecv then { r with chkResult := .matched } else raise .checksumMismatch r

/-- VALIDATE's effect: the empty payload first (R158, R188). -/
def validatePayload (s : State) : State :=
  if s.payLen = 0 then raise .checksumEmpty s else compareChecksum s

/-- `VALIDATE` (R155). -/
def execValidate (s : State) : Outcome := issueOneStep .validate validatePayload s

end Sys2Proof.Machine
end

