-- ==== Sys2Proof/Machine/Decoder.lean ====
section
/-! DEFINITION. DECODE: the pulse-width threshold classifier and bit extractor (41_decode.md). -/

namespace Sys2Proof.Machine

/-- Shift a byte's accumulator right by 1 and set its bit 7 to the decision (R69, R120). -/
def shiftIn (acc : Byte) (b : Bool) : Byte := (acc >>> 1) ||| (if b then 0x80#8 else 0#8)

/-- The byte of group `g`: its 8 odd-indexed entries in order, the accumulator starting at 0 (R115, R120). -/
def groupByte (a : Arith) (s : State) (g : Nat) : Byte :=
  (List.range 8).foldl
    (fun acc k => shiftIn acc (isLong a (analysedLen s) (markSum s) (remDur s (Config.group * g + 2 * k + 1)))) 0

/-- The bytes of all whole groups (R120, R121). -/
def decodedBytes (a : Arith) (s : State) : List Byte :=
  (List.range (analysedLen s / Config.group)).map (groupByte a s)

/-- DEC_WARN_LEN, written on every DECODE (R113). -/
def warnLength (s : State) : State :=
  if frameLengthWrong s then raise .frameLengthWarning s else { s with decWarnLen := false }

/-- Rate, payload and result of a successful decode (R118 to R121). -/
def storeDecoded (a : Arith) (s : State) : State :=
  { storePayload (decodedBytes a s) (selectRate (nearestIdx (possibleBaud a (analysedLen s) (markSum s))) s) with
    decResult := .ok }

/-- DECODE's effect in either arithmetic: warning, then no group, then zero threshold, then the results (R111 to R123, R188). -/
def decodeTrain (a : Arith) (s : State) : State :=
  let r := warnLength s
  if analysedLen r = 0 then raise .decodeNoGroup r
  else if thresholdZero a (analysedLen r) (markSum r) then raise .decodeZeroThreshold r
  else storeDecoded a r

/-- `DECODE` (R110), one step (R126). -/
def execDecode (s : State) : Outcome := issueOneStep .decode (decodeTrain Config.arith) s

end Sys2Proof.Machine
end

