-- ==== Sys2Proof/Machine/Encoder.lean ====
section
/-! DEFINITION. ENCODE: the pulse encoder and its FSM (43_encode.md). -/

namespace Sys2Proof.Machine

/-- `ENC_PERIOD = (1_000_000 - CFG_COMP_US * BAUD) / BAUD`, exact (R142, R143). -/
def compensatedPeriod (s : State) : Rat := (periodNumerator s : Rat) / (s.baud.toNat : Rat)

/-- Issue of ENCODE: the two conditions, else the period is latched and the FSM starts (R144, R148, R188). -/
def encodeStart (s : State) : State :=
  if s.baud = 0 then complete (raise .encodeZeroRate s)
  else if periodNumerator s ≤ 0 then complete (raise .encodePeriodUnderflow s)
  else { s with encResult := .none, encPeriod := compensatedPeriod s, encByte := 0, encBit := 0, encPhase := .startMark }

/-- `ENCODE` (R140). It then takes one step per event. -/
def execEncode (s : State) : Outcome := issue .encode encodeStart s

/-- Emit the mark of a line symbol (R65, R70). -/
def emitMark (i : Instr) (s : State) : State := emit .carrier ((markPeriods i : Rat) * s.encPeriod) s

/-- Emit the space of a line symbol (R65, R70). -/
def emitSpace (i : Instr) (s : State) : State := emit .gap ((spacePeriods i : Rat) * s.encPeriod) s

/-- After the gap of a data bit: the next bit, the next byte, or the stop bit (R148). -/
def nextBit (s : State) : State :=
  if s.encBit.val < 7 then { s with encBit := s.encBit + 1, encPhase := .bitMark }
  else if s.encByte + 1 < s.payLen then { s with encBit := 0, encByte := s.encByte + 1, encPhase := .bitMark }
  else { s with encPhase := .stopMark }

/-- The symbol of the data bit ENC stands at (R145, R146). -/
def currentSymbol (s : State) : Instr := bitSymbol (encodeBit s)

/-- One step of ENC's FSM: one event (R148). That ENC_BYTE, ENC_BIT and ENC_PERIOD keep their last values from the last event
until the next ENCODE (U25: any value) is the model's choice (log 7). -/
def encodeStep (s : State) : State :=
  match s.encPhase with
  | .idle => s
  | .startMark => { emitMark .lineStart s with encPhase := .startGap }
  | .startGap =>
    { emitSpace .lineStart s with encPhase := if 0 < s.payLen then .bitMark else .stopMark }
  | .bitMark => { emitMark (currentSymbol s) s with encPhase := .bitGap }
  | .bitGap => nextBit (emitSpace (currentSymbol s) s)
  | .stopMark => { emitMark .lineStop s with encPhase := .stopGap }
  | .stopGap => complete { emitSpace .lineStop s with encResult := .ok, encPhase := .idle }

end Sys2Proof.Machine
end

