-- ==== Sys2Proof/Machine/LineSymbols.lean ====
section
/-! DEFINITION. The four symbols of the line frame (30_encoding.md rules R65, R84): what ENC asks of the output primitive for
one symbol, the mark and then the space, at the period it holds. They are no commands and no word of CMD reaches them
(log 10). -/

namespace Sys2Proof.Machine

/-- A mark and the space after it are one symbol (R65, R141). -/
def emitSymbol (i : Instr) (s : State) : State := emitSpace i (emitMark i s)

/-- `LINE.START`: carrier on for 8 periods, off for 3 (R65). -/
def execLineStart (s : State) : Outcome := .next (emitSymbol .lineStart s)

/-- `LINE.BIT0`: carrier on for 1 period, off for 1 (R65). -/
def execLineBit0 (s : State) : Outcome := .next (emitSymbol .lineBit0 s)

/-- `LINE.BIT1`: carrier on for 1 period, off for 3 (R65). -/
def execLineBit1 (s : State) : Outcome := .next (emitSymbol .lineBit1 s)

/-- `LINE.STOP`: carrier on for 1 period, off for 1 (R65). -/
def execLineStop (s : State) : Outcome := .next (emitSymbol .lineStop s)

end Sys2Proof.Machine
end

