-- ==== Sys2Proof/Machine/Dispatch.lean ====
section
/-! DEFINITION. One arm for each instruction of spec/opcode_table.json. -/

namespace Sys2Proof.Machine

def exec (i : Instr) (s : State) : Host.Outcome State Fault Refusal :=
  match i with
  | .capture => Sys2Proof.Machine.execCapture s
  | .decode => Sys2Proof.Machine.execDecode s
  | .snap => Sys2Proof.Machine.execSnap s
  | .selrate idx => Sys2Proof.Machine.execSelrate idx s
  | .encode => Sys2Proof.Machine.execEncode s
  | .validate => Sys2Proof.Machine.execValidate s
  | .lineStart => Sys2Proof.Machine.execLineStart s
  | .lineBit0 => Sys2Proof.Machine.execLineBit0 s
  | .lineBit1 => Sys2Proof.Machine.execLineBit1 s
  | .lineStop => Sys2Proof.Machine.execLineStop s

end Sys2Proof.Machine
end

