-- ==== Sys2Proof/Machine/HostPort.lean ====
section
/-! DEFINITION. The host port: reads and writes of single registers (10_state.md rules R36, R39, 20_memory.md rule R48,
60_exceptions.md rule R194), and the reset input (70_reset_and_hazards.md rules R200 to R202). -/

namespace Sys2Proof.Machine

/-- A write while BUSY = 0; one beyond a bound, or `CFG_IDLE_LIMIT <- 2^32 - 1`, leaves the register as it is (R21, R48, U22). -/
def writeRegister (r : HostWrite) (s : State) : State :=
  match r with
  | .cfgIdleLevel v => { s with cfgIdleLevel := v }
  | .cfgIdleLimit v => if v = BitVec.allOnes 32 then s else { s with cfgIdleLimit := v }
  | .cfgMinPulses v => { s with cfgMinPulses := v }
  | .cfgCompUs v => { s with cfgCompUs := v }
  | .cfgStopRem v => { s with cfgStopRem := v }
  | .trainEntry i p => if i < Config.trainDepth then writeTrain i p s else s
  | .trainLen n => if n ≤ Config.trainDepth then { s with trainLen := n } else s
  | .payByte i b => if i < Config.payMax then writePayload i b s else s
  | .payLen n => if n ≤ Config.payMax then { s with payLen := n } else s
  | .baud v => { s with baud := v }
  | .x v => { s with x := v }

/-- A host write of a register other than CMD: refused while BUSY = 1 (R39). -/
def hostWrite (r : HostWrite) (s : State) : State := if s.busy then s else writeRegister r s

/-- A Pulse as one word, the level in bit 32 (R61). -/
def packPulse (p : Pulse) : PulseWord := p.level ++ p.dur

/-- The read port shows a register's value, extended with zeros (R194; log 18). -/
def showValue {w : Nat} (v : BitVec w) (s : State) : State := { s with hostData := v.setWidth 33 }

/-- A buffer or its length read while BUSY = 1: any value (R36, U9; log 6). -/
def showBuffer {w : Nat} (v : BitVec w) (s : State) : State :=
  if s.busy then { s with hostData := Config.busyRead s.draws, draws := s.draws + 1 } else showValue v s

/-- A host read of a register (R36). An element that does not exist stops the run (R41, R42; log 13). -/
def hostRead (r : HostRead) (s : State) : Outcome :=
  match r with
  | .cfgIdleLevel => .next (showValue s.cfgIdleLevel s)
  | .cfgIdleLimit => .next (showValue s.cfgIdleLimit s)
  | .cfgMinPulses => .next (showValue s.cfgMinPulses s)
  | .cfgCompUs => .next (showValue s.cfgCompUs s)
  | .cfgStopRem => .next (showValue s.cfgStopRem s)
  | .trainEntry i =>
    if i < Config.trainDepth then .next (showBuffer (packPulse (readTrain s i)) s) else .fault (.noSuchElement i)
  | .trainLen => .next (showBuffer (BitVec.ofNat 33 s.trainLen) s)
  | .payByte i =>
    if i < Config.payMax then .next (showBuffer (readPayload s i) s) else .fault (.noSuchElement i)
  | .payLen => .next (showBuffer (BitVec.ofNat 33 s.payLen) s)
  | .baud => .next (showValue s.baud s)
  | .baudIdx => .next (showValue s.baudIdx s)
  | .x => .next (showValue s.x s)
  | .cmdErr => .next (showValue s.cmdErr.code s)
  | .busy => .next (showValue (BitVec.ofBool s.busy) s)
  | .opActive => .next (showValue s.opActive s)
  | .capResult => .next (showValue s.capResult.code s)
  | .decResult => .next (showValue s.decResult.code s)
  | .decWarnLen => .next (showValue (BitVec.ofBool s.decWarnLen) s)
  | .encResult => .next (showValue s.encResult.code s)
  | .chkResult => .next (showValue s.chkResult.code s)
  | .chkCalc => .next (showValue s.chkCalc s)
  | .chkRecv => .next (showValue s.chkRecv s)

/-- The reset input (R200 to R202): every register of R37 takes its reset value and a running operation is abandoned. What
reset does not reach goes on: the environment's moves, its clock, and the events already emitted (log 9). The contents of
the buffers and free values are new ones (log 4). -/
def resetEngine (s : State) : State :=
  { State.reset with
    agenda := s.agenda
    now := s.now
    hostData := s.hostData
    draws := s.draws + 1
    trainGen := s.draws + 1
    payGen := s.draws + 1
    past := s.past ++ s.out }

end Sys2Proof.Machine
end

