-- ==== Sys2Proof/Machine/Agents.lean ====
section
/-! DEFINITION. One move of one agent (00_scope.md rule R11): the host's command, write or read, the line's sample, the
engine's own step, reset. The step takes the next move of the agenda; when there is none, only the engine moves (log 1). -/

namespace Sys2Proof.Machine

/-- A word is written to CMD (R83, R188): lost while BUSY = 1, CMD_ERR = 1 if it is no command (R79), else the command runs. -/
def commandWrite (w : Byte) (s : State) : Outcome :=
  if s.busy then .next (raise .rejectedBusy s)
  else
    match decodeBytes [w] with
    | .ok (i, _) => exec i s
    | .error _ => .next (raise .illegalCommand s)

/-- What the engine does by itself: ENC's next event (R148), or one more sample for a running capture (R101), or nothing: it
starts no operation of its own accord (R177, R203, R221). -/
def engineStep (s : State) : State :=
  if s.encPhase ≠ .idle then encodeStep s
  else if s.capState ≠ .idle then drawSample s
  else s

/-- One move. -/
def takeEvent (e : Event) (s : State) : Outcome :=
  match e with
  | .command w => commandWrite w s
  | .write r => .next (hostWrite r s)
  | .read r => hostRead r s
  | .sample v dt => .next (lineSample v dt s)
  | .engine => .next (engineStep s)
  | .reset => .next (resetEngine s)

/-- The next move: the agenda's first, or the engine's when the agenda is empty. -/
def nextMove (s : State) : Event := s.agenda.headD .engine

/-- The state in which that move is made: the agenda without it. -/
def afterMove (s : State) : State := { s with agenda := s.agenda.tail }

/-- Put a move before all others. -/
def pushMove (e : Event) (s : State) : State := { s with agenda := e :: s.agenda }

/-- The command word in the first byte of a table word (R76). -/
def fetchWord (w : Nat) : Byte := BitVec.ofNat 8 w

end Sys2Proof.Machine
end

