-- ==== Sys2Proof/Machine/Step.lean ====
section
/-! DEFINITION. One step of the machine: the next move of the agenda, made in the state without it (log 1, log 11). -/

namespace Sys2Proof.Machine

def step (s : State) : Host.Outcome State Fault Refusal :=
  takeEvent (nextMove s) (afterMove s)

/-- The host's next move is to write this table word to CMD (R76, R83). The engine fetches nothing by itself (R35); this is
the only way an instruction comes to run (log 11). -/
def State.withFetchWord (s : State) (_nbits w : Nat) : State :=
  pushMove (.command (fetchWord w)) s

end Sys2Proof.Machine
end

