-- ==== Sys2Proof/Machine/Build.lean ====
section
/-! DEFINITION. BUILD, the host's payload construction helper (45_payload_helper.md). It is no unit of the engine, has no
command word and touches no state (R7, R163). -/

namespace Sys2Proof.Machine

/-- The mode symbol; one the helper does not know carries its name (R163, R167). -/
inductive ModeSym where
  | heat
  | dry
  | cool
  | feel
  | unknown (name : String)
deriving DecidableEq, Repr

/-- The fan symbol (R163, R169). -/
inductive FanSym where
  | auto
  | f1
  | f2
  | f3
  | unknown (name : String)
deriving DecidableEq, Repr

/-- The vane symbol (R163, R169). -/
inductive VaneSym where
  | auto
  | v1
  | v2
  | v3
  | v4
  | v5
  | cruise
  | unknown (name : String)
deriving DecidableEq, Repr

/-- `InvalidFieldValue` with the offending field and its value (R172, R185). -/
inductive InvalidField where
  | mode (name : String)
  | temperature (value : Int)
  | fan (name : String)
  | vane (name : String)
deriving DecidableEq, Repr

/-- Byte 5 (R166). -/
def enableByte (enabled : Bool) : Byte := if enabled then 0x24 else 0x20

/-- Byte 6 (R167). -/
def modeByte : ModeSym → Except InvalidField Byte
  | .heat => .ok 0x01
  | .dry => .ok 0x02
  | .cool => .ok 0x03
  | .feel => .ok 0x08
  | .unknown n => .error (.mode n)

/-- Byte 7 (R168). -/
def temperatureByte (t : Int) : Except InvalidField Byte :=
  if 16 ≤ t ∧ t ≤ 31 then .ok (BitVec.ofNat 8 (31 - t).toNat) else .error (.temperature t)

/-- The fan half of byte 8 (R169). -/
def fanCode : FanSym → Except InvalidField Byte
  | .auto => .ok 0x0
  | .f1 => .ok 0x2
  | .f2 => .ok 0x3
  | .f3 => .ok 0x5
  | .unknown n => .error (.fan n)

/-- The vane half of byte 8 (R169). -/
def vaneCode : VaneSym → Except InvalidField Byte
  | .auto => .ok 0x0
  | .v1 => .ok 0x8
  | .v2 => .ok 0x10
  | .v3 => .ok 0x18
  | .v4 => .ok 0x20
  | .v5 => .ok 0x28
  | .cruise => .ok 0x38
  | .unknown n => .error (.vane n)

/-- Bytes 0 to 12: header, enable, mode, temperature, fan and vane, four reserved zeros (R164 to R170). -/
def payloadBody (enabled : Bool) (mode temp fan vane : Byte) : List Byte :=
  [0x23, 0xcb, 0x26, 0x01, 0x00, enableByte enabled, mode, temp, fan ||| vane, 0, 0, 0, 0]

/-- The 14 bytes: the body and the sum of its bytes modulo 256 (R164, R171). -/
def withChecksum (body : List Byte) : List Byte := body ++ [body.foldl (· + ·) 0]

/-- `BUILD(enabled, mode, temperature, fan, vane)` (R163); of several bad fields the first in this order is reported (R172). -/
def buildPayload (enabled : Bool) (mode : ModeSym) (temperature : Int) (fan : FanSym) (vane : VaneSym) :
    Except InvalidField (List Byte) :=
  match modeByte mode with
  | .error e => .error e
  | .ok m =>
    match temperatureByte temperature with
    | .error e => .error e
    | .ok t =>
      match fanCode fan with
      | .error e => .error e
      | .ok f =>
        match vaneCode vane with
        | .error e => .error e
        | .ok v => .ok (withChecksum (payloadBody enabled m t f v))

end Sys2Proof.Machine
end

