-- ==== Sys2Proof/Machine/HostChains.lean ====
section
/-! DEFINITION. The host's two chains of commands (30_encoding.md rule R82) as moves of the agenda. They are host programs,
outside the engine (R6, R177). -/

namespace Sys2Proof.Machine

/-- The moves that load a payload: its bytes, then its length (R82). -/
def loadPayload (p : List Byte) : List Event :=
  (Memory.ofListFrom 0 p).map (fun e => .write (.payByte e.1 e.2)) ++ [.write (.payLen p.length)]

/-- How RUNTRANSMIT chooses the rate (R82, R136). -/
inductive RateChoice where
  | number (baud : Word)
  | table (idx : Nibble)
deriving DecidableEq, Repr

/-- The move that loads the rate (R82). -/
def loadRate : RateChoice → Event
  | .number b => .write (.baud b)
  | .table i => .command (commandWord (.selrate i))

/-- `RUNTRANSMIT payload, baud` (R82): load the operands, issue ENCODE. Waiting for BUSY = 0 is the host making no move. -/
def runTransmit (p : List Byte) (r : RateChoice) : List Event :=
  loadPayload p ++ [loadRate r, .command (commandWord .encode)]

/-- Where a host stands in RUNCAPTURE (R82). -/
inductive CaptureChain where
  | start
  | captured
  | decoded
  | validated
  | done
deriving DecidableEq, Repr

/-- What RUNCAPTURE reports: BAUD, PAYLOAD, DEC_WARN_LEN, CHK_RESULT (R82). -/
structure CaptureReport where
  baud      : Word
  payload   : List Byte
  warnLen   : Bool
  chkResult : ChkResult
deriving DecidableEq, Repr

/-- The report of a chain whose operations have completed (R82). -/
def captureReport (s : State) : CaptureReport :=
  { baud := s.baud, payload := payloadBytes s, warnLen := s.decWarnLen, chkResult := s.chkResult }

/-- The host reads that fetch the report: PAYLOAD by its length and then its bytes (R36, R82). -/
def reportReads (s : State) : List Event :=
  [.read .baud, .read .payLen] ++ (List.range s.payLen).map (fun i => .read (.payByte i)) ++
    [.read .decWarnLen, .read .chkResult]

/-- One advance of the chain: the host's next moves, where it then stands, and the report once there is one. -/
structure ChainMove where
  moves  : List Event
  next   : CaptureChain
  report : Option CaptureReport := none
deriving DecidableEq, Repr

/-- `RUNCAPTURE` (R82): from where the host stands and what it reads, its next move. `retry` is the caller's choice after a
capture that was too short (R199, R217). That the chain ends after OVERFLOW whatever `retry` says, and that it reports only
after VALIDATE, is the model's choice (log 22). -/
def runCapture (retry : Bool) (stage : CaptureChain) (s : State) : ChainMove :=
  if s.busy then { moves := [], next := stage }
  else
    match stage with
    | .start => { moves := [.command (commandWord .capture)], next := .captured }
    | .captured =>
      if s.capResult = .ok then { moves := [.command (commandWord .decode)], next := .decoded }
      else if s.capResult = .tooShort ∧ retry then { moves := [.command (commandWord .capture)], next := .captured }
      else { moves := [], next := .done }
    | .decoded =>
      if s.decResult = .ok then { moves := [.command (commandWord .validate)], next := .validated }
      else { moves := [], next := .done }
    | .validated => { moves := reportReads s, next := .done, report := some (captureReport s) }
    | .done => { moves := [], next := .done }

end Sys2Proof.Machine
end

