-- ==== Sys2Proof/Safety.lean ====
section
/-! DEFINITION. The terms claims about the engine are stated in: the invariants of its state, the event list of a frame
(43_encode.md rule R145), and the harness train of a frame (95_test_vectors.md section 1), which is no part of the engine. -/

namespace Sys2Proof.Machine

/-- What every state of a run has, whatever the environment does. -/
structure EngineInv (s : State) : Prop where
  /-- TRAIN is in canonical form and inside its space (R41). -/
  trainWf : Memory.wf s.train = true
  trainBound : ∀ i p, (i, p) ∈ s.train → i < Config.trainDepth
  /-- PAYLOAD is in canonical form and inside its space (R42). -/
  payloadWf : Memory.wf s.payload = true
  payloadBound : ∀ i b, (i, b) ∈ s.payload → i < Config.payMax
  /-- The lengths stay within the buffers (R25, R48). -/
  trainLen : s.trainLen ≤ Config.trainDepth
  payLen : s.payLen ≤ Config.payMax
  /-- BAUD_IDX names a table entry (R64). -/
  baudIdx : s.baudIdx.toNat ≤ 12
  /-- The reserved value of CFG_IDLE_LIMIT is never there (R21). -/
  idleLimit : s.cfgIdleLimit ≠ BitVec.allOnes 32
  /-- BUSY says that CAP or ENC is at work, and never both (R27, R53). -/
  busyIff : s.busy = true ↔ s.capState ≠ .idle ∨ s.encPhase ≠ .idle
  oneUnit : s.capState = .idle ∨ s.encPhase = .idle
  /-- While CAPTURE runs, OP_ACTIVE is its opcode and CAP_RESULT reads NONE (R27, R28). -/
  capturing : s.capState ≠ .idle → s.opActive = 1 ∧ s.capResult = .none
  /-- While ENCODE runs, OP_ACTIVE is its opcode, ENC_RESULT reads NONE and the period is positive (R27, R30, R144). -/
  encoding : s.encPhase ≠ .idle → s.opActive = 5 ∧ s.encResult = .none ∧ 0 < s.encPeriod
  /-- CAP_NUMIDLE has not exceeded the limit (R32, R96), and the run started in the past (R101). -/
  numIdle : s.capState = .run → s.capNumIdle.toNat ≤ s.cfgIdleLimit.toNat
  startTime : s.capState = .run → s.capT0 ≤ s.now
  /-- Until the first data bit ENC stands at bit 0 of byte 0 (R148). -/
  encFirst : s.encPhase = .startMark ∨ s.encPhase = .startGap → s.encByte = 0 ∧ s.encBit = 0
  /-- At a data bit ENC stands at a valid byte (R33, R48). -/
  encByte : s.encPhase = .bitMark ∨ s.encPhase = .bitGap → s.encByte < s.payLen
  /-- Emitted durations are not negative (R33). -/
  outDur : ∀ e ∈ s.out, 0 ≤ e.dur

/-- The level of train entry `i` of a capture: the idle level first, then alternating (R15, R102). -/
def entryLevel (s : State) (i : Nat) : Bit := if i % 2 = 0 then s.cfgIdleLevel else activeLevel s

/-- Entries `0 .. TRAIN_LEN-1` alternate, beginning with the idle level (R15, R102). -/
def TrainAlternates (s : State) : Prop := ∀ i < s.trainLen, (readTrain s i).level = entryLevel s i

/-- What a capture in progress keeps: an empty train while it waits; in the run, unless it overflowed, an alternating train
whose next entry will have the level CAP_PREV does not have (R91, R93, R94, R102). -/
structure CaptureInv (s : State) : Prop where
  waiting : s.capState = .wait → s.trainLen = 0 ∧ s.capOvf = false
  running : s.capState = .run → s.capOvf = false → TrainAlternates s ∧ s.capPrev = 1 - entryLevel s s.trainLen

/-- `|x - LUT[i]|` over the 13 rates as the spec lists them (R63, R131). -/
def rateDistance (x i : Nat) : Nat :=
  ((x : Int) - ([110, 300, 600, 1200, 2400, 4800, 9600, 14400, 19200, 38400, 57600, 115200, 128000].getD i 0 : Nat)).natAbs

/-- Entry `idx` is the nearest rate to `x`, and the first listed of those at the same distance (R131, R132). -/
def IsNearest (x idx : Nat) : Prop :=
  idx ≤ 12 ∧ (∀ j ≤ 12, rateDistance x idx ≤ rateDistance x j) ∧ ∀ j < idx, rateDistance x idx < rateDistance x j

/-- The duration of train entry `i` in microseconds. -/
def trainDur (s : State) (i : Nat) : Nat := (readTrain s i).dur.toNat

/-- `n` of DECODE: what is left of the train after its first 2 entries, cut to whole groups of 16 (R111, R112). -/
def decodeN (s : State) : Nat := 16 * ((s.trainLen - 2) / 16)

/-- `S` of DECODE: the even-indexed durations of the analysed region, entries 2, 4, ... of the train (R116). -/
def decodeS (s : State) : Nat := ((List.range (decodeN s / 2)).map fun j => trainDur s (2 + 2 * j)).sum

/-- The data bit `k` of group `g`: its space is at or above the effective threshold (R120). -/
def decodedBit (s : State) (g k : Nat) : Bool :=
  decide (3 * decodeS s ≤ trainDur s (2 + (16 * g + 2 * k + 1)) * (decodeN s - 3))

/-- The frame-length warning (R113). -/
def warningDue (s : State) : Bool := decide ((s.trainLen - 2) % 16 ≠ s.cfgStopRem.toNat)

/-- `1_000_000 / BAUD - CFG_COMP_US`, microseconds (R142, R143). -/
def nominalLessComp (s : State) : Rat := 1000000 / (s.baud.toNat : Rat) - (s.cfgCompUs.toNat : Rat)

/-- The machine's run of `k` steps. -/
def runSteps (k : Nat) (s : State) : Outcome := Host.Core.run Sys2Proof.core k s

/-- The events of one data bit (R145). -/
def bitEvents (P : Rat) (b : Bool) : List Emission :=
  [{ kind := .carrier, dur := P }, { kind := .gap, dur := if b then 3 * P else P }]

/-- The event list of one ENCODE with period `P` (R145, R146). -/
def frameEvents (P : Rat) (p : List Byte) : List Emission :=
  [{ kind := .carrier, dur := 8 * P }, { kind := .gap, dur := 3 * P }]
    ++ (payloadBits p).flatMap (bitEvents P)
    ++ [{ kind := .carrier, dur := P }, { kind := .gap, dur := P }]

/-- The number of 1 bits of a payload (R66, R147). -/
def onesCount (p : List Byte) : Nat := (payloadBits p).count true

/-- The total duration of a list of events. -/
def totalDur (l : List Emission) : Rat := (l.map Emission.dur).sum

/-- The next state of an outcome, or the given state where there is none. -/
def outcomeState (s : State) : Outcome → State
  | .next t => t
  | .fault _ => s
  | .refused _ => s

/-- Execute a list of instructions one after the other, as far as they answer a next state. -/
def execAll : List Instr → State → State
  | [], s => s
  | i :: l, s => execAll l (outcomeState s (exec i s))

/-- `round_half_up(k * 1_000_000 / B)` (95_test_vectors.md section 1). -/
def roundedPeriods (k B : Nat) : Nat := (2 * (k * 1000000) + B) / (2 * B)

/-- The two entries of a data bit in `LineTrain`. -/
def lineTrainBit (B : Nat) (b : Bool) : List Pulse :=
  [{ level := 1, dur := BitVec.ofNat 32 (roundedPeriods 1 B) },
   { level := 0, dur := BitVec.ofNat 32 (roundedPeriods (if b then 3 else 1) B) }]

/-- `LineTrain(B, P)`: what CAP records from an ideal line (95_test_vectors.md section 1, R62, D23). -/
def lineTrain (B : Nat) (p : List Byte) : List Pulse :=
  [{ level := 1, dur := BitVec.ofNat 32 (roundedPeriods 8 B) }, { level := 0, dur := BitVec.ofNat 32 (roundedPeriods 3 B) }]
    ++ (payloadBits p).flatMap (lineTrainBit B)
    ++ [{ level := 1, dur := BitVec.ofNat 32 (roundedPeriods 1 B) }]

/-- TRAIN holds exactly this train. -/
def HoldsTrain (s : State) (l : List Pulse) : Prop :=
  s.trainLen = l.length ∧ ∀ i (h : i < l.length), readTrain s i = l[i]

/-- The samples of a line that changes level once per interval: each interval ends with a sample at the new level, the first
one ending at the idle level (R62, R94). -/
def edgeSamples (idle : Bit) : List Nat → List Event
  | [] => []
  | d :: l => .sample idle d :: edgeSamples (1 - idle) l

/-- Samples at one level with these spacings. -/
def levelSamples (v : Bit) (dts : List Nat) : List Event := dts.map (.sample v)

end Sys2Proof.Machine
end

