-- ==== Sys2Proof/Certificates/Slice0/Obligations.lean ====
section
/-! DEFINITION. The statements for the provers. Each docstring names the rule of spec/ it formalises. In a statement about the
next state, `∃ c` leaves open what the write-only register CMD holds (log 8), and `∃ tr g d` or `g d` what unspecified buffer
contents become (log 4): no statement rests on those choices of the model. Where a statement says that nothing else changes,
that this holds of the seven hidden registers outside an operation (U25: any value) is the model's choice (log 7). -/

open Sys2Proof Sys2Proof.Machine

/-! ## Formats -/

/-- R77, R78: a word is the operation of a row exactly when `word AND mask = match`; SELRATE's operand is `CMD[3:0]`. -/
def Obligations.OpcodeMapByMaskAndMatch : Prop :=
  ∀ w : Byte,
    (decodeBytes [w] = .ok (.capture, []) ↔ w &&& 0xFF = 0x10) ∧
    (decodeBytes [w] = .ok (.decode, []) ↔ w &&& 0xFF = 0x20) ∧
    (decodeBytes [w] = .ok (.snap, []) ↔ w &&& 0xFF = 0x30) ∧
    (∀ idx, decodeBytes [w] = .ok (.selrate idx, []) ↔ w &&& 0xF0 = 0x40 ∧ idx.toNat = w.toNat % 16) ∧
    (decodeBytes [w] = .ok (.encode, []) ↔ w &&& 0xFF = 0x50) ∧
    (decodeBytes [w] = .ok (.validate, []) ↔ w &&& 0xFF = 0x60)

/-- R76, R77: a few command words written out bit by bit decode to what they stand for, and two illegal ones to nothing. -/
def Obligations.SampleCommandWordsDecode : Prop :=
  decodeBytes [0b00010000] = .ok (.capture, []) ∧ decodeBytes [0b01000100] = .ok (.selrate 4, []) ∧
  decodeBytes [0b01001101] = .ok (.selrate 13, []) ∧ decodeBytes [0b01100000] = .ok (.validate, []) ∧
  decodeBytes [0b00010001] = .error (.nonZeroArgument 1 1) ∧ decodeBytes [0b01110000] = .error (.illegalOpcode 7)

/-- R76 to R78: a command's word decodes to that command, whatever its argument, and a word that decodes is that command's word. -/
def Obligations.CommandWordsRoundTrip : Prop :=
  (∀ i w, encodeCmd i = some w → ∀ rest, decodeBytes (w :: rest) = .ok (i, rest)) ∧
  (∀ w rest i r, decodeBytes (w :: rest) = .ok (i, r) → encodeCmd i = some w ∧ r = rest)

/-- R65, R66, R71, R84: the carrier pattern of a payload's frame is read back as the same symbols, and payloads with the same
pattern are equal: no bit of the payload is lost in the frame. -/
def Obligations.FramePatternReadsBack : Prop :=
  (∀ p : List Byte, parseFrame (symbolsPattern (frameSymbols p)) = some (frameSymbols p)) ∧
  (∀ p q : List Byte, symbolsPattern (frameSymbols p) = symbolsPattern (frameSymbols q) → p = q)

/-- R65, R66: a frame is `8 L + 2` symbols, each a mark and then a space, and lasts `13 + 16 L + 2 * ones` symbol periods. -/
def Obligations.FrameLengthInPeriods : Prop :=
  ∀ p : List Byte,
    (frameSymbols p).length = 8 * p.length + 2 ∧
    (∀ i ∈ frameSymbols p, ∃ m k, 0 < m ∧ 0 < k ∧ linePattern i = List.replicate m true ++ List.replicate k false) ∧
    (symbolsPattern (frameSymbols p)).length = 13 + 16 * p.length + 2 * onesCount p

/-! ## Commands reach the engine -/

/-- R35, R83: a legal word written to CMD while BUSY = 0 runs its instruction, in the state without that move. So does a word
placed by withFetchWord: that clause is the model's own reading of how an instruction comes to run (DEDUCED, log 11). -/
def Obligations.StepRunsDecodedCommand : Prop :=
  (∀ s w i l, s.agenda = .command w :: l → s.busy = false → decodeBytes [w] = .ok (i, []) →
    step s = exec i { s with agenda := l }) ∧
  (∀ s w i, s.busy = false → decodeTableWord 8 w = some i → step (s.withFetchWord 8 w) = exec i s)

/-- R83: a word written while BUSY = 1 is lost with CMD_ERR = 2 and no other effect. An accepted command sets CMD_ERR to 0 and
OP_ACTIVE to `CMD[7:4]`; DECODE, SNAP, SELRATE and VALIDATE have completed in that step, CAPTURE has not. -/
def Obligations.AcceptanceAndCompletion : Prop :=
  ∀ s w l, s.agenda = .command w :: l →
    (s.busy = true → step s = .next { s with agenda := l, cmdErr := .rejectedBusy }) ∧
    (s.busy = false → ∀ i, decodeBytes [w] = .ok (i, []) → i.wellFormed = true →
      ∃ t, step s = .next t ∧ t.cmdErr = .accepted ∧ t.opActive.toNat = w.toNat / 16 ∧
        (i = .decode ∨ i = .snap ∨ (∃ idx, i = .selrate idx) ∨ i = .validate → t.busy = false) ∧
        (i = .capture → t.busy = true))

/-- R79: opcodes 0x0 and 0x7 to 0xF, and a non-zero argument of 0x1, 0x2, 0x3, 0x5 or 0x6, set CMD_ERR to 1 and change nothing
else; SELRATE 13 to 15 sets CMD_ERR to 3 and changes nothing else. -/
def Obligations.IllegalAndReservedWords : Prop :=
  ∀ s w l, s.agenda = .command w :: l → s.busy = false →
    (w.toNat / 16 = 0 ∨ 7 ≤ w.toNat / 16 → step s = .next { s with agenda := l, cmdErr := .illegal }) ∧
    (w.toNat / 16 ∈ [1, 2, 3, 5, 6] → w.toNat % 16 ≠ 0 → step s = .next { s with agenda := l, cmdErr := .illegal }) ∧
    (w.toNat / 16 = 4 → 13 ≤ w.toNat % 16 → step s = .next { s with agenda := l, cmdErr := .badArg })

/-! ## CAPTURE -/

/-- R91: accepting CAPTURE clears CAP_RESULT, the train and CAP_OVF and starts the wait; nothing else changes. -/
def Obligations.CaptureIssue : Prop :=
  ∀ s, s.busy = false → ∃ c tr g d,
    exec .capture s = .next { s with
      cmd := c, cmdErr := .accepted, opActive := 1, busy := true, capResult := .none,
      train := tr, trainLen := 0, trainGen := g, draws := d, capOvf := false, capState := .wait }

/-- R92, R93: in the wait a sample at the idle level changes nothing, and the first active sample starts the run and is
consumed by that. -/
def Obligations.CaptureWaitSample : Prop :=
  ∀ s v dt l, s.agenda = .sample v dt :: l → s.capState = .wait →
    step s = .next (
      if v = 1 - s.cfgIdleLevel then
        { s with agenda := l, now := s.now + dt, capT0 := s.now + dt, capNumIdle := 0, capPrev := 1 - s.cfgIdleLevel,
                 capState := .run }
      else { s with agenda := l, now := s.now + dt })

/-- R94, R95, R97, R99, R100: one sample of the run that does not end it. A sample at a new level appends one entry with the
saturated length of the interval, or sets CAP_OVF if TRAIN is full; the idle counter counts or restarts; CAP_PREV follows. -/
def Obligations.CaptureRunSample : Prop :=
  ∀ s v dt l, s.agenda = .sample v dt :: l → s.capState = .run →
    let n : Word := if v = s.cfgIdleLevel then s.capNumIdle + 1 else 0
    n.toNat ≤ s.cfgIdleLimit.toNat →
    step s = .next (
      if v = s.capPrev then { s with agenda := l, now := s.now + dt, capNumIdle := n }
      else if s.trainLen < 256 then
        { s with
          agenda := l, now := s.now + dt, capNumIdle := n, capPrev := v, capT0 := s.now + dt, trainLen := s.trainLen + 1,
          train := Memory.write s.train s.trainLen
            { level := v, dur := BitVec.ofNat 32 (min (s.now + dt - s.capT0) (2 ^ 32 - 1)) } }
      else { s with agenda := l, now := s.now + dt, capNumIdle := n, capPrev := v, capT0 := s.now + dt, capOvf := true })

/-- R96, R98, R99: the sample that takes the idle run above the limit completes the capture. With `len` and `ovf` the length
and the overflow mark after this sample's own edge: OVERFLOW if `ovf`, else OK with the train as recorded if `len` is at least
CFG_MIN_PULSES, else TOO_SHORT; the last two failures leave TRAIN_LEN = 0. CAP_PREV is not updated. That the hidden registers keep these values once the
operation has ended is the model's choice (log 7). -/
def Obligations.CaptureCompletion : Prop :=
  ∀ s v dt l, s.agenda = .sample v dt :: l → s.capState = .run → v = s.cfgIdleLevel →
    s.cfgIdleLimit.toNat < (s.capNumIdle + 1).toNat →
    let edge : Bool := decide (v ≠ s.capPrev)
    let full : Bool := decide (256 ≤ s.trainLen)
    let len : Nat := if edge && !full then s.trainLen + 1 else s.trainLen
    let ovf : Bool := s.capOvf || (edge && full)
    let kept : Memory Pulse :=
      if edge && !full then Memory.write s.train s.trainLen
        { level := v, dur := BitVec.ofNat 32 (min (s.now + dt - s.capT0) (2 ^ 32 - 1)) }
      else s.train
    let t0 : Nat := if edge then s.now + dt else s.capT0
    (ovf = true → ∃ tr g d, step s = .next { s with
      agenda := l, now := s.now + dt, capNumIdle := s.capNumIdle + 1, capT0 := t0, capOvf := true, capState := .idle,
      busy := false, capResult := .overflow, train := tr, trainLen := 0, trainGen := g, draws := d }) ∧
    (ovf = false → s.cfgMinPulses.toNat ≤ len → step s = .next { s with
      agenda := l, now := s.now + dt, capNumIdle := s.capNumIdle + 1, capT0 := t0, capState := .idle,
      busy := false, capResult := .ok, train := kept, trainLen := len }) ∧
    (ovf = false → len < s.cfgMinPulses.toNat → ∃ tr g d, step s = .next { s with
      agenda := l, now := s.now + dt, capNumIdle := s.capNumIdle + 1, capT0 := t0, capState := .idle,
      busy := false, capResult := .tooShort, train := tr, trainLen := 0, trainGen := g, draws := d })

/-- R92, R103 (a): on a line that stays idle CAPTURE waits, however many samples come. -/
def Obligations.CaptureOnIdleLineWaits : Prop :=
  ∀ s dts l, s.capState = .wait → s.agenda = levelSamples s.cfgIdleLevel dts ++ l →
    runSteps dts.length s = .next { s with agenda := l, now := s.now + dts.sum }

/-- R103 (b): on a line stuck at the active level a capture in its run goes on, however many samples come, and records nothing. -/
def Obligations.CaptureOnStuckLineRuns : Prop :=
  ∀ s dts l, s.capState = .run → s.capPrev = 1 - s.cfgIdleLevel →
    s.agenda = levelSamples (1 - s.cfgIdleLevel) dts ++ l →
    ∃ c, runSteps dts.length s = .next { s with agenda := l, now := s.now + dts.sum, capNumIdle := c }

/-- R96, R104 (a): in the run, with the line already idle, the capture ends at exactly the sample that makes the run of idle
samples `CFG_IDLE_LIMIT + 1` long and at none before. -/
def Obligations.CaptureEndsAfterIdleRun : Prop :=
  ∀ s dts l, s.capState = .run → s.busy = true → s.capPrev = s.cfgIdleLevel → s.cfgIdleLimit ≠ BitVec.allOnes 32 →
    s.capNumIdle.toNat + dts.length = s.cfgIdleLimit.toNat + 1 → 0 < dts.length →
    s.agenda = levelSamples s.cfgIdleLevel dts ++ l →
    (∀ k < dts.length, ∃ t, runSteps k s = .next t ∧ t.capState = .run ∧ t.busy = true ∧ t.trainLen = s.trainLen) ∧
    (∃ t, runSteps dts.length s = .next t ∧ t.capState = .idle ∧ t.busy = false ∧ t.agenda = l ∧
      t.capResult = (if s.capOvf then .overflow else if s.cfgMinPulses.toNat ≤ s.trainLen then .ok else .tooShort))

/-- R104 (e), C3: one active sample and then only idle ones end a waiting capture after `CFG_IDLE_LIMIT + 1` idle samples, too
short, with no train. -/
def Obligations.SingleActiveSampleIsTooShort : Prop :=
  ∀ s d0 dts, s.capState = .wait → s.trainLen = 0 → s.capOvf = false → 1 < s.cfgMinPulses.toNat →
    s.cfgIdleLimit ≠ BitVec.allOnes 32 → dts.length = s.cfgIdleLimit.toNat + 1 →
    s.agenda = .sample (1 - s.cfgIdleLevel) d0 :: levelSamples s.cfgIdleLevel dts →
    ∃ t, runSteps (1 + dts.length) s = .next t ∧ t.capResult = .tooShort ∧ t.trainLen = 0 ∧ t.busy = false ∧
      t.capState = .idle

/-- R62, R93, R94, R98, R102: a waiting capture records a line that goes active, changes level once after each of an odd number
of intervals (at most 255) and then stays idle: the train is exactly these intervals, saturated, the first entry at the idle
level, then alternating. -/
def Obligations.CaptureRecordsIntervals : Prop :=
  ∀ s d0 ds tl, s.capState = .wait → s.trainLen = 0 → s.capOvf = false →
    ds.length % 2 = 1 → ds.length ≤ 255 → s.cfgMinPulses.toNat ≤ ds.length →
    0 < s.cfgIdleLimit.toNat → s.cfgIdleLimit ≠ BitVec.allOnes 32 → tl.length = s.cfgIdleLimit.toNat →
    s.agenda = .sample (1 - s.cfgIdleLevel) d0 :: (edgeSamples s.cfgIdleLevel ds ++ levelSamples s.cfgIdleLevel tl) →
    ∃ t, runSteps (1 + ds.length + tl.length) s = .next t ∧ t.busy = false ∧ t.capState = .idle ∧ t.agenda = [] ∧
      t.capResult = .ok ∧
      HoldsTrain t (ds.zipIdx.map fun e =>
        { level := if e.2 % 2 = 0 then s.cfgIdleLevel else 1 - s.cfgIdleLevel,
          dur := BitVec.ofNat 32 (min e.1 (2 ^ 32 - 1)) })

/-- R15, R91, R93, R94: every step keeps what a capture in progress relies on: an empty train while it waits, an alternating
one while it runs. -/
def Obligations.CaptureProgressKept : Prop :=
  ∀ s t, EngineInv s → CaptureInv s → step s = .next t → CaptureInv t

/-- R15, R102, R104 (g): a capture that completes OK leaves an odd number of entries whose levels alternate, the first and the
last at the idle level. -/
def Obligations.CompletedTrainAlternatesAndIsOdd : Prop :=
  ∀ s t, EngineInv s → CaptureInv s → s.capState = .run → step s = .next t → t.capResult = .ok →
    t.trainLen % 2 = 1 ∧ TrainAlternates t ∧
    (readTrain t 0).level = t.cfgIdleLevel ∧ (readTrain t (t.trainLen - 1)).level = t.cfgIdleLevel

/-! ## DECODE -/

/-- R113, R114: a train of fewer than 18 entries: NO_GROUP, PAY_LEN = 0, the warning by its own rule, and nothing else. -/
def Obligations.DecodeNoGroup : Prop :=
  ∀ s, s.busy = false → s.trainLen < 18 → ∃ c,
    exec .decode s = .next { s with
      cmd := c, cmdErr := .accepted, opActive := 2, decWarnLen := warningDue s, decResult := .noGroup, payLen := 0 }

/-- R113, R122: whole groups whose marks are all 0: ZERO_THRESHOLD, PAY_LEN = 0, the warning by its own rule, and nothing else. -/
def Obligations.DecodeZeroThreshold : Prop :=
  ∀ s, s.busy = false → 18 ≤ s.trainLen → decodeS s = 0 → ∃ c,
    exec .decode s = .next { s with
      cmd := c, cmdErr := .accepted, opActive := 2, decWarnLen := warningDue s, decResult := .zeroThreshold, payLen := 0 }

/-- R113, R116, R118 to R121: every other train decodes. Bit `k` of byte `g` says whether its space reaches `3 S / (n - 3)`; the
rate is the nearest to `(1_000_000 (n - 3) + S) // (2 S)`; nothing but the results changes. -/
def Obligations.DecodeResults : Prop :=
  ∀ s, s.busy = false → 18 ≤ s.trainLen → 0 < decodeS s →
    ∃ c p g d idx, IsNearest ((1000000 * (decodeN s - 3) + decodeS s) / (2 * decodeS s)) idx ∧
      exec .decode s = .next { s with
        cmd := c, cmdErr := .accepted, opActive := 2, decWarnLen := warningDue s, decResult := .ok,
        baud := BitVec.ofNat 32 ([110, 300, 600, 1200, 2400, 4800, 9600, 14400, 19200, 38400, 57600, 115200, 128000].getD idx 0),
        baudIdx := BitVec.ofNat 4 idx, payload := p, payLen := decodeN s / 16, payGen := g, draws := d } ∧
      ∀ j < decodeN s / 16, ∀ k < 8, ∃ b, Memory.read? p j = some b ∧ b.getLsbD k = decodedBit s j k

/-- R125 (a): raising one space from below to at or above the effective threshold flips exactly its bit: the rate and every
other bit stay. -/
def Obligations.DecodeMonotonicBit : Prop :=
  ∀ s t g k, s.busy = false → g < decodeN s / 16 → k < 8 → 0 < decodeS s →
    t = { s with train := t.train, trainGen := t.trainGen } →
    (∀ i, i ≠ 2 + (16 * g + 2 * k + 1) → trainDur t i = trainDur s i) →
    decodedBit s g k = false →
    3 * decodeS s ≤ trainDur t (2 + (16 * g + 2 * k + 1)) * (decodeN s - 3) →
    ∃ s' t', exec .decode s = .next s' ∧ exec .decode t = .next t' ∧ t'.baud = s'.baud ∧ t'.baudIdx = s'.baudIdx ∧
      t'.payLen = s'.payLen ∧
      (readPayload s' g).getLsbD k = false ∧ (readPayload t' g).getLsbD k = true ∧
      ∀ j < s'.payLen, ∀ q < 8, (j ≠ g ∨ q ≠ k) → (readPayload t' j).getLsbD q = (readPayload s' j).getLsbD q

/-- R125 (b): multiplying every duration of the analysed region by the same positive factor leaves every decoded byte as it is. -/
def Obligations.DecodeScaleInvariant : Prop :=
  ∀ s t f, s.busy = false → 18 ≤ s.trainLen → 0 < decodeS s → 0 < f →
    t = { s with train := t.train, trainGen := t.trainGen } →
    (∀ i, 2 ≤ i → i < 2 + decodeN s → trainDur t i = f * trainDur s i) →
    ∃ s' t', exec .decode s = .next s' ∧ exec .decode t = .next t' ∧ payloadBytes t' = payloadBytes s'

/-- R124: DECODE reads durations only: trains with the same durations and any levels give the same results. -/
def Obligations.DecodeIgnoresLevels : Prop :=
  ∀ s t, t = { s with train := t.train, trainGen := t.trainGen } → (∀ i, trainDur t i = trainDur s i) →
    ∃ s' t', exec .decode s = .next s' ∧ exec .decode t = .next t' ∧
      t' = { s' with train := t.train, trainGen := t.trainGen }

/-- R150, section 1 (a) of 95_test_vectors.md: the train an ideal line records from the frame of a payload of 1 to 15 bytes, at
every table rate, decodes to that payload, with no warning at remainder 1, in both arithmetic modes. -/
def Obligations.DecodeRecoversFramePayload : Prop :=
  ∀ s (B : Nat) (p : List Byte), s.busy = false → s.cfgStopRem = 1 →
    B ∈ [110, 300, 600, 1200, 2400, 4800, 9600, 14400, 19200, 38400, 57600, 115200, 128000] →
    1 ≤ p.length → p.length ≤ 15 → HoldsTrain s (lineTrain B p) →
    (∃ t, exec .decode s = .next t ∧ t.decResult = .ok ∧ t.decWarnLen = false ∧ payloadBytes t = p) ∧
    ∀ a, (decodeTrain a s).decResult = .ok ∧ (decodeTrain a s).decWarnLen = false ∧ payloadBytes (decodeTrain a s) = p

/-- R125 (d), section 1 (c) of 95_test_vectors.md: for frames of 7 bytes or more the rate comes back too, at every table rate. -/
def Obligations.DecodeRecoversFrameRate : Prop :=
  ∀ s (B : Nat) (p : List Byte), s.busy = false →
    B ∈ [110, 300, 600, 1200, 2400, 4800, 9600, 14400, 19200, 38400, 57600, 115200, 128000] →
    7 ≤ p.length → p.length ≤ 15 → HoldsTrain s (lineTrain B p) →
    ∃ t, exec .decode s = .next t ∧ t.baud = BitVec.ofNat 32 B

/-! ## SNAP and SELRATE -/

/-- R131, R132: SNAP loads the nearest rate to X, the first listed on a tie, and its index; nothing else changes. -/
def Obligations.SnapTakesFirstNearest : Prop :=
  ∀ s, s.busy = false → ∃ c idx, IsNearest s.x.toNat idx ∧
    exec .snap s = .next { s with
      cmd := c, cmdErr := .accepted, opActive := 3,
      baud := BitVec.ofNat 32 ([110, 300, 600, 1200, 2400, 4800, 9600, 14400, 19200, 38400, 57600, 115200, 128000].getD idx 0),
      baudIdx := BitVec.ofNat 4 idx }

/-- R133: the bands of X that give each rate and its index. -/
def Obligations.SnapBands : Prop :=
  ∀ s, s.busy = false → ∃ t, exec .snap s = .next t ∧
    (t.baudIdx, t.baud) =
      (if s.x.toNat ≤ 205 then (0, 110) else if s.x.toNat ≤ 450 then (1, 300) else if s.x.toNat ≤ 900 then (2, 600)
      else if s.x.toNat ≤ 1800 then (3, 1200) else if s.x.toNat ≤ 3600 then (4, 2400)
      else if s.x.toNat ≤ 7200 then (5, 4800) else if s.x.toNat ≤ 12000 then (6, 9600)
      else if s.x.toNat ≤ 16800 then (7, 14400) else if s.x.toNat ≤ 28800 then (8, 19200)
      else if s.x.toNat ≤ 48000 then (9, 38400) else if s.x.toNat ≤ 86400 then (10, 57600)
      else if s.x.toNat ≤ 121600 then (11, 115200) else (12, 128000) : Nibble × Word)

/-- R134, R135: SELRATE loads the table entry and its index for 0 to 12; 13 to 15 only set CMD_ERR to 3. -/
def Obligations.SelrateLoadsTableEntry : Prop :=
  ∀ s idx, s.busy = false →
    (idx.toNat ≤ 12 → ∃ c, exec (.selrate idx) s = .next { s with
      cmd := c, cmdErr := .accepted, opActive := 4, baudIdx := idx,
      baud := BitVec.ofNat 32
        ([110, 300, 600, 1200, 2400, 4800, 9600, 14400, 19200, 38400, 57600, 115200, 128000].getD idx.toNat 0) }) ∧
    (13 ≤ idx.toNat → exec (.selrate idx) s = .next { s with cmdErr := .badArg })

/-! ## ENCODE and the line symbols -/

/-- R144: a zero rate, and else a compensated period that is not positive, end ENCODE at issue with nothing emitted. -/
def Obligations.EncodeRefusesUnusableRate : Prop :=
  ∀ s, s.busy = false →
    (s.baud = 0 → ∃ c, exec .encode s = .next { s with
      cmd := c, cmdErr := .accepted, opActive := 5, encResult := .zeroRate }) ∧
    (s.baud ≠ 0 → nominalLessComp s ≤ 0 → ∃ c, exec .encode s = .next { s with
      cmd := c, cmdErr := .accepted, opActive := 5, encResult := .periodUnderflow })

/-- R142, R143, R148: with a positive period ENCODE is accepted, latches `1_000_000 / BAUD - CFG_COMP_US` exactly and stands
at the start mark; nothing is emitted yet and nothing else changes. -/
def Obligations.EncodeLatchesPeriod : Prop :=
  ∀ s, s.busy = false → s.baud ≠ 0 → 0 < nominalLessComp s → ∃ c,
    exec .encode s = .next { s with
      cmd := c, cmdErr := .accepted, opActive := 5, busy := true, encResult := .none, encPeriod := nominalLessComp s,
      encByte := 0, encBit := 0, encPhase := .startMark }

/-- R145 to R149: an ENCODE left to itself appends exactly the event list of its payload, one event a step, then completes OK;
nothing else changes. That ENC_PERIOD keeps its value after the last event is the model's choice (log 7). -/
def Obligations.EncodeEmitsTheFrame : Prop :=
  ∀ s, s.busy = false → s.baud ≠ 0 → 0 < nominalLessComp s → s.agenda = [] →
    ∃ t c j k, exec .encode s = .next t ∧
      runSteps (4 + 16 * s.payLen) t = .next { s with
        cmd := c, cmdErr := .accepted, opActive := 5, encResult := .ok, encPeriod := nominalLessComp s, encByte := j,
        encBit := k, encPhase := .idle, out := s.out ++ frameEvents (nominalLessComp s) (payloadBytes s) }

/-- R147: one ENCODE's event list has `4 + 16 L` events, alternately carrier and gap, that last `13 + 16 L + 2 * ones` periods. -/
def Obligations.FrameEventsCountAndTotal : Prop :=
  ∀ (P : Rat) (p : List Byte),
    (frameEvents P p).length = 4 + 16 * p.length ∧
    (∀ i (h : i < (frameEvents P p).length),
      (frameEvents P p)[i].kind = if i % 2 = 0 then EmitKind.carrier else EmitKind.gap) ∧
    totalDur (frameEvents P p) = (13 + 16 * (p.length : Rat) + 2 * (onesCount p : Rat)) * P

/-- R152, R213: with the offset 100 exactly the rates 1 to 9999 start an emission and every rate from 10000 up reports
PERIOD_UNDERFLOW; with the offset 0 every rate but 0 starts one. -/
def Obligations.RatesThatEmit : Prop :=
  ∀ s, s.busy = false → ∃ t, exec .encode s = .next t ∧
    (s.cfgCompUs = 100 → (t.busy = true ↔ 1 ≤ s.baud.toNat ∧ s.baud.toNat ≤ 9999) ∧
      (10000 ≤ s.baud.toNat → t.encResult = .periodUnderflow)) ∧
    (s.cfgCompUs = 0 → (t.busy = true ↔ 1 ≤ s.baud.toNat))

/-- R148: an ENCODE in progress always completes: left to itself, within 4 + 16 * 15 events, OK. -/
def Obligations.EncodeAlwaysCompletes : Prop :=
  ∀ s, EngineInv s → s.encPhase ≠ .idle → s.agenda = [] →
    ∃ k t, k ≤ 4 + 16 * 15 ∧ runSteps k s = .next t ∧ t.busy = false ∧ t.encResult = .ok ∧ t.encPhase = .idle

/-- R65, R141: a line symbol is its mark and then its space at the period ENC holds, and changes nothing but OUT. That the
symbols, which are no commands, are instructions with this meaning is the model's choice (log 10). -/
def Obligations.LineSymbolsEmitMarkAndSpace : Prop :=
  ∀ s,
    exec .lineStart s = .next { s with out := s.out ++
      [{ kind := .carrier, dur := 8 * s.encPeriod }, { kind := .gap, dur := 3 * s.encPeriod }] } ∧
    exec .lineBit0 s = .next { s with out := s.out ++
      [{ kind := .carrier, dur := s.encPeriod }, { kind := .gap, dur := s.encPeriod }] } ∧
    exec .lineBit1 s = .next { s with out := s.out ++
      [{ kind := .carrier, dur := s.encPeriod }, { kind := .gap, dur := 3 * s.encPeriod }] } ∧
    exec .lineStop s = .next { s with out := s.out ++
      [{ kind := .carrier, dur := s.encPeriod }, { kind := .gap, dur := s.encPeriod }] }

/-- R65, R66, R145: the symbols of a payload's frame, one after the other, emit exactly the event list of ENCODE (the symbols'
meaning as instructions is log 10's). -/
def Obligations.FrameSymbolsEmitTheFrame : Prop :=
  ∀ s p, execAll (frameSymbols p) s = { s with out := s.out ++ frameEvents s.encPeriod p }

/-- R82, R145: RUNTRANSMIT loads a payload and a rate and sends the frame of that payload at that rate, whatever the buffer
held before. -/
def Obligations.RunTransmitSendsPayload : Prop :=
  ∀ s (p : List Byte) (B : Word), s.busy = false → p.length ≤ 15 → B ≠ 0 →
    0 < 1000000 / (B.toNat : Rat) - (s.cfgCompUs.toNat : Rat) → s.agenda = runTransmit p (.number B) →
    ∃ t, runSteps (p.length + 3 + (4 + 16 * p.length)) s = .next t ∧ t.busy = false ∧ t.encResult = .ok ∧ t.agenda = [] ∧
      t.baud = B ∧ payloadBytes t = p ∧
      t.out = s.out ++ frameEvents (1000000 / (B.toNat : Rat) - (s.cfgCompUs.toNat : Rat)) p

/-! ## VALIDATE and BUILD -/

/-- R156, R157: VALIDATE sums all bytes but the last modulo 256, shows the sum and the last byte, and compares them; nothing
else changes. -/
def Obligations.ValidateComparesSum : Prop :=
  ∀ s, s.busy = false → 0 < s.payLen →
    let c : Byte := BitVec.ofNat 8 (((List.range (s.payLen - 1)).map fun i => (readPayload s i).toNat).sum % 256)
    let r : Byte := readPayload s (s.payLen - 1)
    ∃ w, exec .validate s = .next { s with
      cmd := w, cmdErr := .accepted, opActive := 6, chkCalc := c, chkRecv := r,
      chkResult := if c = r then .matched else .mismatch }

/-- R158: VALIDATE of an empty payload reports EMPTY with both values 0, and is no match. -/
def Obligations.ValidateEmptyPayload : Prop :=
  ∀ s, s.busy = false → s.payLen = 0 → ∃ w, exec .validate s = .next { s with
    cmd := w, cmdErr := .accepted, opActive := 6, chkCalc := 0, chkRecv := 0, chkResult := .empty }

/-- R173: every payload BUILD returns has 14 bytes and passes VALIDATE. -/
def Obligations.BuiltPayloadsValidate : Prop :=
  ∀ en m temp f v p s, buildPayload en m temp f v = .ok p → s.busy = false → payloadBytes s = p →
    p.length = 14 ∧ ∃ t, exec .validate s = .next t ∧ t.chkResult = .matched

/-- R164 to R171: for known symbols and a temperature from 16 to 31 BUILD gives exactly these 14 bytes. -/
def Obligations.BuildLayout : Prop :=
  ∀ (en : Bool) (temp : Int), 16 ≤ temp → temp ≤ 31 →
    ∀ m ∈ [(ModeSym.heat, (0x01 : Byte)), (.dry, 0x02), (.cool, 0x03), (.feel, 0x08)],
    ∀ f ∈ [(FanSym.auto, (0x0 : Byte)), (.f1, 0x2), (.f2, 0x3), (.f3, 0x5)],
    ∀ v ∈ [(VaneSym.auto, (0x0 : Byte)), (.v1, 0x8), (.v2, 0x10), (.v3, 0x18), (.v4, 0x20), (.v5, 0x28), (.cruise, 0x38)],
      let body : List Byte := [0x23, 0xcb, 0x26, 0x01, 0x00, if en then 0x24 else 0x20, m.2, BitVec.ofInt 8 (31 - temp),
        f.2 ||| v.2, 0x00, 0x00, 0x00, 0x00]
      buildPayload en m.1 temp f.1 v.1 = .ok (body ++ [BitVec.ofNat 8 ((body.map BitVec.toNat).sum % 256)])

/-- R172: an unknown symbol or a temperature outside 16 to 31 gives no payload but the first bad field and its value, in the order
mode, temperature, fan, vane. -/
def Obligations.BuildReportsFirstBadField : Prop :=
  ∀ en m temp f v,
    (∀ n, m = .unknown n → buildPayload en m temp f v = .error (.mode n)) ∧
    ((∀ n, m ≠ .unknown n) → (temp < 16 ∨ 31 < temp) → buildPayload en m temp f v = .error (.temperature temp)) ∧
    ((∀ n, m ≠ .unknown n) → 16 ≤ temp → temp ≤ 31 →
      (∀ n, f = .unknown n → buildPayload en m temp f v = .error (.fan n)) ∧
      ((∀ n, f ≠ .unknown n) → ∀ n, v = .unknown n → buildPayload en m temp f v = .error (.vane n)))

/-! ## The host port and reset -/

/-- R39: a host write of a register other than CMD while BUSY = 1 leaves every register as it is. -/
def Obligations.BusyHostWriteRefused : Prop :=
  ∀ s r l, s.agenda = .write r :: l → s.busy = true → step s = .next { s with agenda := l }

/-- R21, R36, R48: a host write while BUSY = 0 sets its register and nothing else, so a write of BAUD leaves BAUD_IDX; a write
beyond a buffer's bound, and `CFG_IDLE_LIMIT <- 2^32 - 1`, leave everything as it is. -/
def Obligations.HostWritesLand : Prop :=
  ∀ (s : State) (l : List Event) (r : HostWrite), s.agenda = .write r :: l → s.busy = false →
    match r with
    | .cfgIdleLevel v => step s = .next { s with agenda := l, cfgIdleLevel := v }
    | .cfgIdleLimit v =>
      step s = .next { s with agenda := l, cfgIdleLimit := if v.toNat = 2 ^ 32 - 1 then s.cfgIdleLimit else v }
    | .cfgMinPulses v => step s = .next { s with agenda := l, cfgMinPulses := v }
    | .cfgCompUs v => step s = .next { s with agenda := l, cfgCompUs := v }
    | .cfgStopRem v => step s = .next { s with agenda := l, cfgStopRem := v }
    | .trainLen n => step s = .next { s with agenda := l, trainLen := if n ≤ 256 then n else s.trainLen }
    | .payLen n => step s = .next { s with agenda := l, payLen := if n ≤ 15 then n else s.payLen }
    | .baud v => step s = .next { s with agenda := l, baud := v }
    | .x v => step s = .next { s with agenda := l, x := v }
    | .trainEntry i p =>
      if 256 ≤ i then step s = .next { s with agenda := l }
      else ∃ m, step s = .next { s with agenda := l, train := m } ∧
        readTrain { s with train := m } i = p ∧ ∀ j ≠ i, readTrain { s with train := m } j = readTrain s j
    | .payByte i b =>
      if 15 ≤ i then step s = .next { s with agenda := l }
      else ∃ m, step s = .next { s with agenda := l, payload := m } ∧
        readPayload { s with payload := m } i = b ∧ ∀ j ≠ i, readPayload { s with payload := m } j = readPayload s j

/-- R36, R47, R61: a host read changes nothing but the read port (log 18). Registers outside the buffers read as they are at any
time; the buffers and their lengths while BUSY = 0; while BUSY = 1 these give some value. An element that does not exist stops
the run (the model's choice, log 13). -/
def Obligations.HostReadsShowRegisters : Prop :=
  (∀ s r l, s.agenda = .read r :: l →
    (∃ v k, step s = .next { s with agenda := l, hostData := v, draws := k }) ∨
    (∃ i, step s = .fault (.noSuchElement i) ∧ ((r = .trainEntry i ∧ 256 ≤ i) ∨ (r = .payByte i ∧ 15 ≤ i)))) ∧
  (∀ s r l t, s.agenda = .read r :: l → step s = .next t →
    (r = .cfgIdleLevel → t.hostData.toNat = s.cfgIdleLevel.toNat) ∧
    (r = .cfgIdleLimit → t.hostData.toNat = s.cfgIdleLimit.toNat) ∧
    (r = .cfgMinPulses → t.hostData.toNat = s.cfgMinPulses.toNat) ∧
    (r = .cfgCompUs → t.hostData.toNat = s.cfgCompUs.toNat) ∧
    (r = .cfgStopRem → t.hostData.toNat = s.cfgStopRem.toNat) ∧
    (r = .baud → t.hostData.toNat = s.baud.toNat) ∧
    (r = .baudIdx → t.hostData.toNat = s.baudIdx.toNat) ∧
    (r = .x → t.hostData.toNat = s.x.toNat) ∧
    (r = .cmdErr → t.hostData.toNat = s.cmdErr.code.toNat) ∧
    (r = .busy → t.hostData.toNat = s.busy.toNat) ∧
    (r = .opActive → t.hostData.toNat = s.opActive.toNat) ∧
    (r = .capResult → t.hostData.toNat = s.capResult.code.toNat) ∧
    (r = .decResult → t.hostData.toNat = s.decResult.code.toNat) ∧
    (r = .decWarnLen → t.hostData.toNat = s.decWarnLen.toNat) ∧
    (r = .encResult → t.hostData.toNat = s.encResult.code.toNat) ∧
    (r = .chkResult → t.hostData.toNat = s.chkResult.code.toNat) ∧
    (r = .chkCalc → t.hostData.toNat = s.chkCalc.toNat) ∧
    (r = .chkRecv → t.hostData.toNat = s.chkRecv.toNat) ∧
    (s.busy = false → s.trainLen ≤ 256 → r = .trainLen → t.hostData.toNat = s.trainLen) ∧
    (s.busy = false → s.payLen ≤ 15 → r = .payLen → t.hostData.toNat = s.payLen) ∧
    (s.busy = false → ∀ i, r = .payByte i → i < 15 → t.hostData.toNat = (readPayload s i).toNat) ∧
    (s.busy = false → ∀ i, r = .trainEntry i → i < 256 →
      t.hostData.toNat = (readTrain s i).level.toNat * 2 ^ 32 + (readTrain s i).dur.toNat))

/-- R37: the values the spec gives for reset, in the reset state and after a reset at any moment (R201). -/
def Obligations.ResetValues : Prop :=
  ∀ s l, s.agenda = .reset :: l → ∃ t, step s = .next t ∧
    ∀ r, r = t ∨ r = State.reset →
      r.cfgIdleLevel = 1 ∧ r.cfgIdleLimit.toNat = Config.idleLimit.val ∧ r.cfgMinPulses = 19 ∧ r.cfgCompUs = 100 ∧
      r.cfgStopRem = 1 ∧ r.trainLen = 0 ∧ r.payLen = 0 ∧ r.baud = 0 ∧ r.baudIdx = 0 ∧ r.x = 0 ∧ r.cmdErr = .accepted ∧
      r.busy = false ∧ r.opActive = 0 ∧ r.capResult = .none ∧ r.decResult = .none ∧ r.encResult = .none ∧
      r.chkResult = .none ∧ r.decWarnLen = false ∧ r.chkCalc = 0 ∧ r.chkRecv = 0 ∧ r.capState = .idle ∧
      r.encPhase = .idle ∧ r.out = []

/-- R202: events already emitted stay emitted when reset empties OUT (that the model keeps them in a history of its own is log 9). -/
def Obligations.ResetKeepsEmittedEvents : Prop :=
  ∀ s l, s.agenda = .reset :: l → ∃ t, step s = .next t ∧ t.past ++ t.out = s.past ++ s.out ∧ t.agenda = l

/-- R177 (a), R106, R203: with nothing asked of it an engine that is not busy stays as it is, and a level at the input port has
no effect on it (only the line's own clock goes on, log 12). -/
def Obligations.IdleEngineStays : Prop :=
  ∀ s, EngineInv s → s.busy = false →
    (s.agenda = [] → step s = .next s) ∧
    (∀ v dt l, s.agenda = .sample v dt :: l → step s = .next { s with agenda := l, now := s.now + dt })

/-! ## Whole-machine rules -/

/-- R20 to R24, R36: no operation writes a configuration register or X: only a host write or reset does. -/
def Obligations.ConfigurationIsTheHosts : Prop :=
  ∀ s t, step s = .next t → (∀ r, nextMove s ≠ .write r) → nextMove s ≠ .reset →
    t.cfgIdleLevel = s.cfgIdleLevel ∧ t.cfgIdleLimit = s.cfgIdleLimit ∧ t.cfgMinPulses = s.cfgMinPulses ∧
    t.cfgCompUs = s.cfgCompUs ∧ t.cfgStopRem = s.cfgStopRem ∧ t.x = s.x

/-- R33, R56, R148: no step but reset takes anything out of OUT, and one step appends at most one event, only while ENC runs. -/
def Obligations.OutIsAppendOnly : Prop :=
  ∀ s t, step s = .next t → nextMove s ≠ .reset →
    ∃ l, t.out = s.out ++ l ∧ l.length ≤ 1 ∧ (l ≠ [] → s.encPhase ≠ .idle)

/-- R28 to R31, R190: a result field changes only through its own operation or reset: CAP_RESULT by an accepted CAPTURE or its
last sample, DEC_RESULT and DEC_WARN_LEN by DECODE, ENC_RESULT by ENCODE, the CHK registers by VALIDATE, CMD_ERR by a write of CMD. -/
def Obligations.ResultFieldsAreOwned : Prop :=
  ∀ s t, step s = .next t → nextMove s ≠ .reset →
    (t.capResult ≠ s.capResult → nextMove s = .command 0x10 ∨ s.capState = .run) ∧
    (t.decResult ≠ s.decResult ∨ t.decWarnLen ≠ s.decWarnLen → nextMove s = .command 0x20) ∧
    (t.encResult ≠ s.encResult → nextMove s = .command 0x50 ∨ s.encPhase = .stopGap) ∧
    (t.chkResult ≠ s.chkResult ∨ t.chkCalc ≠ s.chkCalc ∨ t.chkRecv ≠ s.chkRecv → nextMove s = .command 0x60) ∧
    (t.cmdErr ≠ s.cmdErr → ∃ w, nextMove s = .command w)

/-- R19, R52: TRAIN changes only through CAPTURE, the host or reset; PAYLOAD only through DECODE, the host or reset. -/
def Obligations.BuffersAreOwned : Prop :=
  ∀ s t, step s = .next t → nextMove s ≠ .reset → (∀ r, nextMove s ≠ .write r) →
    (nextMove s ≠ .command 0x10 → s.capState ≠ .run → t.trainLen = s.trainLen ∧ ∀ i, readTrain t i = readTrain s i) ∧
    (nextMove s ≠ .command 0x20 → t.payLen = s.payLen ∧ ∀ i, readPayload t i = readPayload s i)

/-- R27, R36, R39, R53: while BUSY = 1, no move but reset changes an operand of the running operation: configuration, PAYLOAD,
BAUD and X stay, and so does OP_ACTIVE. ENC_PERIOD is held while ENCODE runs (R148); that it stays while CAPTURE runs (U25: any
value) is the model's choice (log 7). -/
def Obligations.BusyOperandsHold : Prop :=
  ∀ s t, step s = .next t → s.busy = true → nextMove s ≠ .reset →
    t.cfgIdleLevel = s.cfgIdleLevel ∧ t.cfgIdleLimit = s.cfgIdleLimit ∧ t.cfgMinPulses = s.cfgMinPulses ∧
    t.cfgCompUs = s.cfgCompUs ∧ t.cfgStopRem = s.cfgStopRem ∧ t.x = s.x ∧ t.baud = s.baud ∧ t.baudIdx = s.baudIdx ∧
    t.payLen = s.payLen ∧ t.payload = s.payload ∧ t.opActive = s.opActive ∧ t.encPeriod = s.encPeriod

/-- R47: DECODE, SNAP, SELRATE and VALIDATE issued twice write the same results as once. -/
def Obligations.OneStepOperationsAreIdempotent : Prop :=
  ∀ s i, s.busy = false → (i = .decode ∨ i = .snap ∨ (∃ idx, i = .selrate idx) ∨ i = .validate) →
    ∃ t u, exec i s = .next t ∧ exec i t = .next u ∧
      u.baud = t.baud ∧ u.baudIdx = t.baudIdx ∧ u.payLen = t.payLen ∧ u.payload = t.payload ∧ u.decResult = t.decResult ∧
      u.decWarnLen = t.decWarnLen ∧ u.chkResult = t.chkResult ∧ u.chkCalc = t.chkCalc ∧ u.chkRecv = t.chkRecv ∧
      u.cmdErr = t.cmdErr ∧ u.busy = false

/-- R44, R50, R55: a buffer reads back what was last written to an element, and a write leaves every other element alone and the
buffer in canonical form. -/
def Obligations.BufferReadAfterWrite : Prop :=
  ∀ (m : Memory Pulse) i v, Memory.wf m = true →
    Memory.wf (Memory.write m i v) = true ∧ Memory.read? (Memory.write m i v) i = some v ∧
    ∀ j ≠ i, Memory.read? (Memory.write m i v) j = Memory.read? m j

/-- R179, R180, R189: no step refuses, and none stops but a host read of an element that does not exist (log 13). -/
def Obligations.OnlyBadReadsStop : Prop :=
  ∀ s, (∃ t, step s = .next t) ∨
    (∃ i, step s = .fault (.noSuchElement i) ∧
      ((nextMove s = .read (.trainEntry i) ∧ 256 ≤ i) ∨ (nextMove s = .read (.payByte i) ∧ 15 ≤ i)))

/-- R13 and the rules each field of EngineInv cites: every step keeps the state's invariant (EngineInv): canonical buffers within their bounds,
a legal index and limit, BUSY exactly while one unit works, the result field of the running unit NONE, the counters in range,
no negative duration emitted. -/
def Obligations.EveryStepKeepsInv : Prop :=
  ∀ s t, EngineInv s → step s = .next t → EngineInv t

/-- R37: the invariants hold at reset. -/
def Obligations.ResetMeetsInvariants : Prop :=
  EngineInv State.reset ∧ CaptureInv State.reset
end

