-- ==== Sys2Proof/Laws/Memory.lean ====
section
/-! SUPPORT. The laws of buffers: reading after writing, and that every operation keeps the canonical form and the bound. -/

namespace Sys2Proof.Machine

variable {α : Type}

/-- The canonical form says that the indices strictly rise. -/
theorem Memory.wf_iff (m : Memory α) : Memory.wf m = true ↔ (m.map Prod.fst).Pairwise (· < ·) := by
  induction m with
  | nil => simp [Memory.wf]
  | cons e m ih =>
    obtain ⟨i, v⟩ := e
    cases m with
    | nil => simp [Memory.wf]
    | cons e' m =>
      obtain ⟨j, w⟩ := e'
      simp only [Memory.wf, Bool.and_eq_true, decide_eq_true_eq, ih]
      simp only [List.map_cons, List.pairwise_cons, List.mem_cons, forall_eq_or_imp]
      constructor
      · rintro ⟨hij, hj, h⟩
        exact ⟨⟨hij, fun k hk => lt_trans hij (hj k hk)⟩, hj, h⟩
      · rintro ⟨⟨hij, -⟩, hj, h⟩
        exact ⟨hij, hj, h⟩

/-- Every listed index after a write was listed before or is the one written. -/
theorem Memory.mem_write {m : Memory α} {i : Nat} {v : α} {e : Nat × α} (h : e ∈ Memory.write m i v) :
    e = (i, v) ∨ e ∈ m := by
  induction m with
  | nil => simpa [Memory.write] using h
  | cons a m ih =>
    obtain ⟨k, u⟩ := a
    simp only [Memory.write] at h
    split at h
    · simpa using h
    · split at h
      · simp only [List.mem_cons] at h ⊢
        tauto
      · simp only [List.mem_cons] at h ⊢
        rcases h with h | h
        · tauto
        · rcases ih h with h | h <;> tauto

/-- A write keeps the canonical form. -/
theorem Memory.wf_write {m : Memory α} (i : Nat) (v : α) (h : Memory.wf m = true) :
    Memory.wf (Memory.write m i v) = true := by
  rw [Memory.wf_iff] at h ⊢
  induction m with
  | nil => simp [Memory.write]
  | cons a m ih =>
    obtain ⟨k, u⟩ := a
    simp only [List.map_cons, List.pairwise_cons] at h
    simp only [Memory.write]
    split
    case isTrue hik =>
      simp only [List.map_cons, List.pairwise_cons, List.mem_cons, forall_eq_or_imp]
      exact ⟨⟨hik, fun j hj => lt_trans hik (h.1 j hj)⟩, h⟩
    case isFalse hik =>
      split
      case isTrue he =>
        subst he
        simpa only [List.map_cons, List.pairwise_cons] using h
      case isFalse he =>
        simp only [List.map_cons, List.pairwise_cons]
        refine ⟨fun j hj => ?_, ih h.2⟩
        obtain ⟨e, hem, rfl⟩ := List.mem_map.1 hj
        rcases Memory.mem_write hem with rfl | hm
        · dsimp only
          omega
        · exact h.1 _ (List.mem_map_of_mem hm)

/-- A write inside a bound keeps the bound. -/
theorem Memory.bound_write {m : Memory α} {i b : Nat} (v : α) (hi : i < b) (h : ∀ e ∈ m, e.1 < b) :
    ∀ e ∈ Memory.write m i v, e.1 < b := by
  intro e he
  rcases Memory.mem_write he with rfl | hm
  · exact hi
  · exact h e hm

/-- Reading the element just written gives what was written. -/
@[simp] theorem Memory.read_write_same (m : Memory α) (i : Nat) (v : α) :
    Memory.read? (Memory.write m i v) i = some v := by
  induction m with
  | nil => simp [Memory.write, Memory.read?]
  | cons a m ih =>
    obtain ⟨k, u⟩ := a
    simp only [Memory.write]
    split
    · simp [Memory.read?]
    · split
      · simp [Memory.read?]
      · next hne => simp [Memory.read?, hne, ih]

/-- A write leaves every other element alone. -/
theorem Memory.read_write_other (m : Memory α) {i j : Nat} (v : α) (h : j ≠ i) :
    Memory.read? (Memory.write m i v) j = Memory.read? m j := by
  induction m with
  | nil => simp [Memory.write, Memory.read?, h]
  | cons a m ih =>
    obtain ⟨k, u⟩ := a
    simp only [Memory.write]
    split
    · simp [Memory.read?, h]
    · split
      · next he => subst he; simp [Memory.read?, h]
      · simp [Memory.read?, ih]

/-- What a buffer made from a list holds. -/
theorem Memory.read_ofListFrom (l : List α) (i j : Nat) :
    Memory.read? (Memory.ofListFrom i l) j = if i ≤ j then l[j - i]? else none := by
  induction l generalizing i with
  | nil => simp [Memory.ofListFrom, Memory.read?]
  | cons v l ih =>
    simp only [Memory.ofListFrom, Memory.read?, ih]
    by_cases hj : j = i
    · subst hj; simp
    · by_cases hle : i ≤ j
      · have h1 : i + 1 ≤ j := by omega
        have h2 : j - i = (j - (i + 1)) + 1 := by omega
        simp [hj, hle, h1, h2]
      · have h1 : ¬ i + 1 ≤ j := by omega
        simp [hj, hle, h1]

/-- The indices of a buffer made from a list lie in its range. -/
theorem Memory.mem_ofListFrom {l : List α} {i : Nat} {e : Nat × α} (h : e ∈ Memory.ofListFrom i l) :
    i ≤ e.1 ∧ e.1 < i + l.length := by
  induction l generalizing i with
  | nil => simp [Memory.ofListFrom] at h
  | cons v l ih =>
    simp only [Memory.ofListFrom, List.mem_cons] at h
    rcases h with rfl | h
    · simp
    · have := ih h
      simp only [List.length_cons]
      omega

/-- A buffer made from a list is in canonical form. -/
theorem Memory.wf_ofListFrom (l : List α) (i : Nat) : Memory.wf (Memory.ofListFrom i l) = true := by
  rw [Memory.wf_iff]
  induction l generalizing i with
  | nil => simp [Memory.ofListFrom]
  | cons v l ih =>
    simp only [Memory.ofListFrom, List.map_cons, List.pairwise_cons]
    refine ⟨fun j hj => ?_, ih _⟩
    obtain ⟨e, he, rfl⟩ := List.mem_map.1 hj
    have := (Memory.mem_ofListFrom he).1
    omega

/-- After reset both buffers are in canonical form. -/
theorem Memory.wf_reset : Memory.wf State.reset.train = true ∧ Memory.wf State.reset.payload = true := ⟨rfl, rfl⟩

/-- Reading the train element just written. -/
@[simp] theorem readTrain_writeTrain_same (s : State) (i : Nat) (p : Pulse) :
    readTrain (writeTrain i p s) i = p := by
  simp [readTrain, writeTrain]

/-- A train write leaves every other element alone. -/
theorem readTrain_writeTrain_other (s : State) {i j : Nat} (p : Pulse) (h : j ≠ i) :
    readTrain (writeTrain i p s) j = readTrain s j := by
  simp [readTrain, writeTrain, Memory.read_write_other _ _ h]

/-- Reading the payload byte just written. -/
@[simp] theorem readPayload_writePayload_same (s : State) (i : Nat) (b : Byte) :
    readPayload (writePayload i b s) i = b := by
  have h := Memory.read_write_same (α := Byte) s.payload i b
  simp only [readPayload, writePayload]
  rw [h]
  rfl

/-- A payload write leaves every other byte alone. -/
theorem readPayload_writePayload_other (s : State) {i j : Nat} (b : Byte) (h : j ≠ i) :
    readPayload (writePayload i b s) j = readPayload s j := by
  have h := Memory.read_write_other (α := Byte) s.payload b h
  simp only [readPayload, writePayload]
  rw [h]

/-- The valid bytes after PAYLOAD was given a whole list. -/
theorem readPayload_storePayload (p : List Byte) (s : State) (i : Nat) (h : i < p.length) :
    readPayload (storePayload p s) i = p[i] := by
  have h1 := Memory.read_ofListFrom (α := Byte) p 0 i
  simp only [Nat.zero_le, if_true, Nat.sub_zero] at h1
  simp only [readPayload, storePayload]
  rw [h1]
  simp [h]

end Sys2Proof.Machine
end

