-- ==== Sys2Proof/Laws/State.lean ====
section
/-! SUPPORT. What each named update of the state leaves in each field: one lemma per field and update, so that no proof
unfolds a record update. -/

namespace Sys2Proof.Machine

@[simp] theorem accept_cfgIdleLevel (w : Byte) (s : State) : (accept w s).cfgIdleLevel = s.cfgIdleLevel := rfl
@[simp] theorem accept_cfgIdleLimit (w : Byte) (s : State) : (accept w s).cfgIdleLimit = s.cfgIdleLimit := rfl
@[simp] theorem accept_cfgMinPulses (w : Byte) (s : State) : (accept w s).cfgMinPulses = s.cfgMinPulses := rfl
@[simp] theorem accept_cfgCompUs (w : Byte) (s : State) : (accept w s).cfgCompUs = s.cfgCompUs := rfl
@[simp] theorem accept_cfgStopRem (w : Byte) (s : State) : (accept w s).cfgStopRem = s.cfgStopRem := rfl
@[simp] theorem accept_train (w : Byte) (s : State) : (accept w s).train = s.train := rfl
@[simp] theorem accept_trainLen (w : Byte) (s : State) : (accept w s).trainLen = s.trainLen := rfl
@[simp] theorem accept_payload (w : Byte) (s : State) : (accept w s).payload = s.payload := rfl
@[simp] theorem accept_payLen (w : Byte) (s : State) : (accept w s).payLen = s.payLen := rfl
@[simp] theorem accept_baud (w : Byte) (s : State) : (accept w s).baud = s.baud := rfl
@[simp] theorem accept_baudIdx (w : Byte) (s : State) : (accept w s).baudIdx = s.baudIdx := rfl
@[simp] theorem accept_x (w : Byte) (s : State) : (accept w s).x = s.x := rfl
@[simp] theorem accept_cmd (w : Byte) (s : State) : (accept w s).cmd = w := rfl
@[simp] theorem accept_cmdErr (w : Byte) (s : State) : (accept w s).cmdErr = .accepted := rfl
@[simp] theorem accept_busy (w : Byte) (s : State) : (accept w s).busy = true := rfl
@[simp] theorem accept_opActive (w : Byte) (s : State) : (accept w s).opActive = opcodeField w := rfl
@[simp] theorem accept_capResult (w : Byte) (s : State) : (accept w s).capResult = s.capResult := rfl
@[simp] theorem accept_decResult (w : Byte) (s : State) : (accept w s).decResult = s.decResult := rfl
@[simp] theorem accept_decWarnLen (w : Byte) (s : State) : (accept w s).decWarnLen = s.decWarnLen := rfl
@[simp] theorem accept_encResult (w : Byte) (s : State) : (accept w s).encResult = s.encResult := rfl
@[simp] theorem accept_chkResult (w : Byte) (s : State) : (accept w s).chkResult = s.chkResult := rfl
@[simp] theorem accept_chkCalc (w : Byte) (s : State) : (accept w s).chkCalc = s.chkCalc := rfl
@[simp] theorem accept_chkRecv (w : Byte) (s : State) : (accept w s).chkRecv = s.chkRecv := rfl
@[simp] theorem accept_capState (w : Byte) (s : State) : (accept w s).capState = s.capState := rfl
@[simp] theorem accept_capT0 (w : Byte) (s : State) : (accept w s).capT0 = s.capT0 := rfl
@[simp] theorem accept_capNumIdle (w : Byte) (s : State) : (accept w s).capNumIdle = s.capNumIdle := rfl
@[simp] theorem accept_capPrev (w : Byte) (s : State) : (accept w s).capPrev = s.capPrev := rfl
@[simp] theorem accept_capOvf (w : Byte) (s : State) : (accept w s).capOvf = s.capOvf := rfl
@[simp] theorem accept_out (w : Byte) (s : State) : (accept w s).out = s.out := rfl
@[simp] theorem accept_encPhase (w : Byte) (s : State) : (accept w s).encPhase = s.encPhase := rfl
@[simp] theorem accept_encByte (w : Byte) (s : State) : (accept w s).encByte = s.encByte := rfl
@[simp] theorem accept_encBit (w : Byte) (s : State) : (accept w s).encBit = s.encBit := rfl
@[simp] theorem accept_encPeriod (w : Byte) (s : State) : (accept w s).encPeriod = s.encPeriod := rfl
@[simp] theorem accept_agenda (w : Byte) (s : State) : (accept w s).agenda = s.agenda := rfl
@[simp] theorem accept_now (w : Byte) (s : State) : (accept w s).now = s.now := rfl
@[simp] theorem accept_hostData (w : Byte) (s : State) : (accept w s).hostData = s.hostData := rfl
@[simp] theorem accept_draws (w : Byte) (s : State) : (accept w s).draws = s.draws := rfl
@[simp] theorem accept_trainGen (w : Byte) (s : State) : (accept w s).trainGen = s.trainGen := rfl
@[simp] theorem accept_payGen (w : Byte) (s : State) : (accept w s).payGen = s.payGen := rfl
@[simp] theorem accept_past (w : Byte) (s : State) : (accept w s).past = s.past := rfl

@[simp] theorem complete_cfgIdleLevel (s : State) : (complete s).cfgIdleLevel = s.cfgIdleLevel := rfl
@[simp] theorem complete_cfgIdleLimit (s : State) : (complete s).cfgIdleLimit = s.cfgIdleLimit := rfl
@[simp] theorem complete_cfgMinPulses (s : State) : (complete s).cfgMinPulses = s.cfgMinPulses := rfl
@[simp] theorem complete_cfgCompUs (s : State) : (complete s).cfgCompUs = s.cfgCompUs := rfl
@[simp] theorem complete_cfgStopRem (s : State) : (complete s).cfgStopRem = s.cfgStopRem := rfl
@[simp] theorem complete_train (s : State) : (complete s).train = s.train := rfl
@[simp] theorem complete_trainLen (s : State) : (complete s).trainLen = s.trainLen := rfl
@[simp] theorem complete_payload (s : State) : (complete s).payload = s.payload := rfl
@[simp] theorem complete_payLen (s : State) : (complete s).payLen = s.payLen := rfl
@[simp] theorem complete_baud (s : State) : (complete s).baud = s.baud := rfl
@[simp] theorem complete_baudIdx (s : State) : (complete s).baudIdx = s.baudIdx := rfl
@[simp] theorem complete_x (s : State) : (complete s).x = s.x := rfl
@[simp] theorem complete_cmd (s : State) : (complete s).cmd = s.cmd := rfl
@[simp] theorem complete_cmdErr (s : State) : (complete s).cmdErr = s.cmdErr := rfl
@[simp] theorem complete_busy (s : State) : (complete s).busy = false := rfl
@[simp] theorem complete_opActive (s : State) : (complete s).opActive = s.opActive := rfl
@[simp] theorem complete_capResult (s : State) : (complete s).capResult = s.capResult := rfl
@[simp] theorem complete_decResult (s : State) : (complete s).decResult = s.decResult := rfl
@[simp] theorem complete_decWarnLen (s : State) : (complete s).decWarnLen = s.decWarnLen := rfl
@[simp] theorem complete_encResult (s : State) : (complete s).encResult = s.encResult := rfl
@[simp] theorem complete_chkResult (s : State) : (complete s).chkResult = s.chkResult := rfl
@[simp] theorem complete_chkCalc (s : State) : (complete s).chkCalc = s.chkCalc := rfl
@[simp] theorem complete_chkRecv (s : State) : (complete s).chkRecv = s.chkRecv := rfl
@[simp] theorem complete_capState (s : State) : (complete s).capState = s.capState := rfl
@[simp] theorem complete_capT0 (s : State) : (complete s).capT0 = s.capT0 := rfl
@[simp] theorem complete_capNumIdle (s : State) : (complete s).capNumIdle = s.capNumIdle := rfl
@[simp] theorem complete_capPrev (s : State) : (complete s).capPrev = s.capPrev := rfl
@[simp] theorem complete_capOvf (s : State) : (complete s).capOvf = s.capOvf := rfl
@[simp] theorem complete_out (s : State) : (complete s).out = s.out := rfl
@[simp] theorem complete_encPhase (s : State) : (complete s).encPhase = s.encPhase := rfl
@[simp] theorem complete_encByte (s : State) : (complete s).encByte = s.encByte := rfl
@[simp] theorem complete_encBit (s : State) : (complete s).encBit = s.encBit := rfl
@[simp] theorem complete_encPeriod (s : State) : (complete s).encPeriod = s.encPeriod := rfl
@[simp] theorem complete_agenda (s : State) : (complete s).agenda = s.agenda := rfl
@[simp] theorem complete_now (s : State) : (complete s).now = s.now := rfl
@[simp] theorem complete_hostData (s : State) : (complete s).hostData = s.hostData := rfl
@[simp] theorem complete_draws (s : State) : (complete s).draws = s.draws := rfl
@[simp] theorem complete_trainGen (s : State) : (complete s).trainGen = s.trainGen := rfl
@[simp] theorem complete_payGen (s : State) : (complete s).payGen = s.payGen := rfl
@[simp] theorem complete_past (s : State) : (complete s).past = s.past := rfl

@[simp] theorem emit_cfgIdleLevel (k : EmitKind) (d : Rat) (s : State) : (emit k d s).cfgIdleLevel = s.cfgIdleLevel := rfl
@[simp] theorem emit_cfgIdleLimit (k : EmitKind) (d : Rat) (s : State) : (emit k d s).cfgIdleLimit = s.cfgIdleLimit := rfl
@[simp] theorem emit_cfgMinPulses (k : EmitKind) (d : Rat) (s : State) : (emit k d s).cfgMinPulses = s.cfgMinPulses := rfl
@[simp] theorem emit_cfgCompUs (k : EmitKind) (d : Rat) (s : State) : (emit k d s).cfgCompUs = s.cfgCompUs := rfl
@[simp] theorem emit_cfgStopRem (k : EmitKind) (d : Rat) (s : State) : (emit k d s).cfgStopRem = s.cfgStopRem := rfl
@[simp] theorem emit_train (k : EmitKind) (d : Rat) (s : State) : (emit k d s).train = s.train := rfl
@[simp] theorem emit_trainLen (k : EmitKind) (d : Rat) (s : State) : (emit k d s).trainLen = s.trainLen := rfl
@[simp] theorem emit_payload (k : EmitKind) (d : Rat) (s : State) : (emit k d s).payload = s.payload := rfl
@[simp] theorem emit_payLen (k : EmitKind) (d : Rat) (s : State) : (emit k d s).payLen = s.payLen := rfl
@[simp] theorem emit_baud (k : EmitKind) (d : Rat) (s : State) : (emit k d s).baud = s.baud := rfl
@[simp] theorem emit_baudIdx (k : EmitKind) (d : Rat) (s : State) : (emit k d s).baudIdx = s.baudIdx := rfl
@[simp] theorem emit_x (k : EmitKind) (d : Rat) (s : State) : (emit k d s).x = s.x := rfl
@[simp] theorem emit_cmd (k : EmitKind) (d : Rat) (s : State) : (emit k d s).cmd = s.cmd := rfl
@[simp] theorem emit_cmdErr (k : EmitKind) (d : Rat) (s : State) : (emit k d s).cmdErr = s.cmdErr := rfl
@[simp] theorem emit_busy (k : EmitKind) (d : Rat) (s : State) : (emit k d s).busy = s.busy := rfl
@[simp] theorem emit_opActive (k : EmitKind) (d : Rat) (s : State) : (emit k d s).opActive = s.opActive := rfl
@[simp] theorem emit_capResult (k : EmitKind) (d : Rat) (s : State) : (emit k d s).capResult = s.capResult := rfl
@[simp] theorem emit_decResult (k : EmitKind) (d : Rat) (s : State) : (emit k d s).decResult = s.decResult := rfl
@[simp] theorem emit_decWarnLen (k : EmitKind) (d : Rat) (s : State) : (emit k d s).decWarnLen = s.decWarnLen := rfl
@[simp] theorem emit_encResult (k : EmitKind) (d : Rat) (s : State) : (emit k d s).encResult = s.encResult := rfl
@[simp] theorem emit_chkResult (k : EmitKind) (d : Rat) (s : State) : (emit k d s).chkResult = s.chkResult := rfl
@[simp] theorem emit_chkCalc (k : EmitKind) (d : Rat) (s : State) : (emit k d s).chkCalc = s.chkCalc := rfl
@[simp] theorem emit_chkRecv (k : EmitKind) (d : Rat) (s : State) : (emit k d s).chkRecv = s.chkRecv := rfl
@[simp] theorem emit_capState (k : EmitKind) (d : Rat) (s : State) : (emit k d s).capState = s.capState := rfl
@[simp] theorem emit_capT0 (k : EmitKind) (d : Rat) (s : State) : (emit k d s).capT0 = s.capT0 := rfl
@[simp] theorem emit_capNumIdle (k : EmitKind) (d : Rat) (s : State) : (emit k d s).capNumIdle = s.capNumIdle := rfl
@[simp] theorem emit_capPrev (k : EmitKind) (d : Rat) (s : State) : (emit k d s).capPrev = s.capPrev := rfl
@[simp] theorem emit_capOvf (k : EmitKind) (d : Rat) (s : State) : (emit k d s).capOvf = s.capOvf := rfl
@[simp] theorem emit_out (k : EmitKind) (d : Rat) (s : State) : (emit k d s).out = s.out ++ [{ kind := k, dur := d }] := rfl
@[simp] theorem emit_encPhase (k : EmitKind) (d : Rat) (s : State) : (emit k d s).encPhase = s.encPhase := rfl
@[simp] theorem emit_encByte (k : EmitKind) (d : Rat) (s : State) : (emit k d s).encByte = s.encByte := rfl
@[simp] theorem emit_encBit (k : EmitKind) (d : Rat) (s : State) : (emit k d s).encBit = s.encBit := rfl
@[simp] theorem emit_encPeriod (k : EmitKind) (d : Rat) (s : State) : (emit k d s).encPeriod = s.encPeriod := rfl
@[simp] theorem emit_agenda (k : EmitKind) (d : Rat) (s : State) : (emit k d s).agenda = s.agenda := rfl
@[simp] theorem emit_now (k : EmitKind) (d : Rat) (s : State) : (emit k d s).now = s.now := rfl
@[simp] theorem emit_hostData (k : EmitKind) (d : Rat) (s : State) : (emit k d s).hostData = s.hostData := rfl
@[simp] theorem emit_draws (k : EmitKind) (d : Rat) (s : State) : (emit k d s).draws = s.draws := rfl
@[simp] theorem emit_trainGen (k : EmitKind) (d : Rat) (s : State) : (emit k d s).trainGen = s.trainGen := rfl
@[simp] theorem emit_payGen (k : EmitKind) (d : Rat) (s : State) : (emit k d s).payGen = s.payGen := rfl
@[simp] theorem emit_past (k : EmitKind) (d : Rat) (s : State) : (emit k d s).past = s.past := rfl

@[simp] theorem writeTrain_cfgIdleLevel (i : Nat) (p : Pulse) (s : State) : (writeTrain i p s).cfgIdleLevel = s.cfgIdleLevel := rfl
@[simp] theorem writeTrain_cfgIdleLimit (i : Nat) (p : Pulse) (s : State) : (writeTrain i p s).cfgIdleLimit = s.cfgIdleLimit := rfl
@[simp] theorem writeTrain_cfgMinPulses (i : Nat) (p : Pulse) (s : State) : (writeTrain i p s).cfgMinPulses = s.cfgMinPulses := rfl
@[simp] theorem writeTrain_cfgCompUs (i : Nat) (p : Pulse) (s : State) : (writeTrain i p s).cfgCompUs = s.cfgCompUs := rfl
@[simp] theorem writeTrain_cfgStopRem (i : Nat) (p : Pulse) (s : State) : (writeTrain i p s).cfgStopRem = s.cfgStopRem := rfl
@[simp] theorem writeTrain_train (i : Nat) (p : Pulse) (s : State) : (writeTrain i p s).train = Memory.write s.train i p := rfl
@[simp] theorem writeTrain_trainLen (i : Nat) (p : Pulse) (s : State) : (writeTrain i p s).trainLen = s.trainLen := rfl
@[simp] theorem writeTrain_payload (i : Nat) (p : Pulse) (s : State) : (writeTrain i p s).payload = s.payload := rfl
@[simp] theorem writeTrain_payLen (i : Nat) (p : Pulse) (s : State) : (writeTrain i p s).payLen = s.payLen := rfl
@[simp] theorem writeTrain_baud (i : Nat) (p : Pulse) (s : State) : (writeTrain i p s).baud = s.baud := rfl
@[simp] theorem writeTrain_baudIdx (i : Nat) (p : Pulse) (s : State) : (writeTrain i p s).baudIdx = s.baudIdx := rfl
@[simp] theorem writeTrain_x (i : Nat) (p : Pulse) (s : State) : (writeTrain i p s).x = s.x := rfl
@[simp] theorem writeTrain_cmd (i : Nat) (p : Pulse) (s : State) : (writeTrain i p s).cmd = s.cmd := rfl
@[simp] theorem writeTrain_cmdErr (i : Nat) (p : Pulse) (s : State) : (writeTrain i p s).cmdErr = s.cmdErr := rfl
@[simp] theorem writeTrain_busy (i : Nat) (p : Pulse) (s : State) : (writeTrain i p s).busy = s.busy := rfl
@[simp] theorem writeTrain_opActive (i : Nat) (p : Pulse) (s : State) : (writeTrain i p s).opActive = s.opActive := rfl
@[simp] theorem writeTrain_capResult (i : Nat) (p : Pulse) (s : State) : (writeTrain i p s).capResult = s.capResult := rfl
@[simp] theorem writeTrain_decResult (i : Nat) (p : Pulse) (s : State) : (writeTrain i p s).decResult = s.decResult := rfl
@[simp] theorem writeTrain_decWarnLen (i : Nat) (p : Pulse) (s : State) : (writeTrain i p s).decWarnLen = s.decWarnLen := rfl
@[simp] theorem writeTrain_encResult (i : Nat) (p : Pulse) (s : State) : (writeTrain i p s).encResult = s.encResult := rfl
@[simp] theorem writeTrain_chkResult (i : Nat) (p : Pulse) (s : State) : (writeTrain i p s).chkResult = s.chkResult := rfl
@[simp] theorem writeTrain_chkCalc (i : Nat) (p : Pulse) (s : State) : (writeTrain i p s).chkCalc = s.chkCalc := rfl
@[simp] theorem writeTrain_chkRecv (i : Nat) (p : Pulse) (s : State) : (writeTrain i p s).chkRecv = s.chkRecv := rfl
@[simp] theorem writeTrain_capState (i : Nat) (p : Pulse) (s : State) : (writeTrain i p s).capState = s.capState := rfl
@[simp] theorem writeTrain_capT0 (i : Nat) (p : Pulse) (s : State) : (writeTrain i p s).capT0 = s.capT0 := rfl
@[simp] theorem writeTrain_capNumIdle (i : Nat) (p : Pulse) (s : State) : (writeTrain i p s).capNumIdle = s.capNumIdle := rfl
@[simp] theorem writeTrain_capPrev (i : Nat) (p : Pulse) (s : State) : (writeTrain i p s).capPrev = s.capPrev := rfl
@[simp] theorem writeTrain_capOvf (i : Nat) (p : Pulse) (s : State) : (writeTrain i p s).capOvf = s.capOvf := rfl
@[simp] theorem writeTrain_out (i : Nat) (p : Pulse) (s : State) : (writeTrain i p s).out = s.out := rfl
@[simp] theorem writeTrain_encPhase (i : Nat) (p : Pulse) (s : State) : (writeTrain i p s).encPhase = s.encPhase := rfl
@[simp] theorem writeTrain_encByte (i : Nat) (p : Pulse) (s : State) : (writeTrain i p s).encByte = s.encByte := rfl
@[simp] theorem writeTrain_encBit (i : Nat) (p : Pulse) (s : State) : (writeTrain i p s).encBit = s.encBit := rfl
@[simp] theorem writeTrain_encPeriod (i : Nat) (p : Pulse) (s : State) : (writeTrain i p s).encPeriod = s.encPeriod := rfl
@[simp] theorem writeTrain_agenda (i : Nat) (p : Pulse) (s : State) : (writeTrain i p s).agenda = s.agenda := rfl
@[simp] theorem writeTrain_now (i : Nat) (p : Pulse) (s : State) : (writeTrain i p s).now = s.now := rfl
@[simp] theorem writeTrain_hostData (i : Nat) (p : Pulse) (s : State) : (writeTrain i p s).hostData = s.hostData := rfl
@[simp] theorem writeTrain_draws (i : Nat) (p : Pulse) (s : State) : (writeTrain i p s).draws = s.draws := rfl
@[simp] theorem writeTrain_trainGen (i : Nat) (p : Pulse) (s : State) : (writeTrain i p s).trainGen = s.trainGen := rfl
@[simp] theorem writeTrain_payGen (i : Nat) (p : Pulse) (s : State) : (writeTrain i p s).payGen = s.payGen := rfl
@[simp] theorem writeTrain_past (i : Nat) (p : Pulse) (s : State) : (writeTrain i p s).past = s.past := rfl

@[simp] theorem writePayload_cfgIdleLevel (i : Nat) (b : Byte) (s : State) : (writePayload i b s).cfgIdleLevel = s.cfgIdleLevel := rfl
@[simp] theorem writePayload_cfgIdleLimit (i : Nat) (b : Byte) (s : State) : (writePayload i b s).cfgIdleLimit = s.cfgIdleLimit := rfl
@[simp] theorem writePayload_cfgMinPulses (i : Nat) (b : Byte) (s : State) : (writePayload i b s).cfgMinPulses = s.cfgMinPulses := rfl
@[simp] theorem writePayload_cfgCompUs (i : Nat) (b : Byte) (s : State) : (writePayload i b s).cfgCompUs = s.cfgCompUs := rfl
@[simp] theorem writePayload_cfgStopRem (i : Nat) (b : Byte) (s : State) : (writePayload i b s).cfgStopRem = s.cfgStopRem := rfl
@[simp] theorem writePayload_train (i : Nat) (b : Byte) (s : State) : (writePayload i b s).train = s.train := rfl
@[simp] theorem writePayload_trainLen (i : Nat) (b : Byte) (s : State) : (writePayload i b s).trainLen = s.trainLen := rfl
@[simp] theorem writePayload_payload (i : Nat) (b : Byte) (s : State) : (writePayload i b s).payload = Memory.write s.payload i b := rfl
@[simp] theorem writePayload_payLen (i : Nat) (b : Byte) (s : State) : (writePayload i b s).payLen = s.payLen := rfl
@[simp] theorem writePayload_baud (i : Nat) (b : Byte) (s : State) : (writePayload i b s).baud = s.baud := rfl
@[simp] theorem writePayload_baudIdx (i : Nat) (b : Byte) (s : State) : (writePayload i b s).baudIdx = s.baudIdx := rfl
@[simp] theorem writePayload_x (i : Nat) (b : Byte) (s : State) : (writePayload i b s).x = s.x := rfl
@[simp] theorem writePayload_cmd (i : Nat) (b : Byte) (s : State) : (writePayload i b s).cmd = s.cmd := rfl
@[simp] theorem writePayload_cmdErr (i : Nat) (b : Byte) (s : State) : (writePayload i b s).cmdErr = s.cmdErr := rfl
@[simp] theorem writePayload_busy (i : Nat) (b : Byte) (s : State) : (writePayload i b s).busy = s.busy := rfl
@[simp] theorem writePayload_opActive (i : Nat) (b : Byte) (s : State) : (writePayload i b s).opActive = s.opActive := rfl
@[simp] theorem writePayload_capResult (i : Nat) (b : Byte) (s : State) : (writePayload i b s).capResult = s.capResult := rfl
@[simp] theorem writePayload_decResult (i : Nat) (b : Byte) (s : State) : (writePayload i b s).decResult = s.decResult := rfl
@[simp] theorem writePayload_decWarnLen (i : Nat) (b : Byte) (s : State) : (writePayload i b s).decWarnLen = s.decWarnLen := rfl
@[simp] theorem writePayload_encResult (i : Nat) (b : Byte) (s : State) : (writePayload i b s).encResult = s.encResult := rfl
@[simp] theorem writePayload_chkResult (i : Nat) (b : Byte) (s : State) : (writePayload i b s).chkResult = s.chkResult := rfl
@[simp] theorem writePayload_chkCalc (i : Nat) (b : Byte) (s : State) : (writePayload i b s).chkCalc = s.chkCalc := rfl
@[simp] theorem writePayload_chkRecv (i : Nat) (b : Byte) (s : State) : (writePayload i b s).chkRecv = s.chkRecv := rfl
@[simp] theorem writePayload_capState (i : Nat) (b : Byte) (s : State) : (writePayload i b s).capState = s.capState := rfl
@[simp] theorem writePayload_capT0 (i : Nat) (b : Byte) (s : State) : (writePayload i b s).capT0 = s.capT0 := rfl
@[simp] theorem writePayload_capNumIdle (i : Nat) (b : Byte) (s : State) : (writePayload i b s).capNumIdle = s.capNumIdle := rfl
@[simp] theorem writePayload_capPrev (i : Nat) (b : Byte) (s : State) : (writePayload i b s).capPrev = s.capPrev := rfl
@[simp] theorem writePayload_capOvf (i : Nat) (b : Byte) (s : State) : (writePayload i b s).capOvf = s.capOvf := rfl
@[simp] theorem writePayload_out (i : Nat) (b : Byte) (s : State) : (writePayload i b s).out = s.out := rfl
@[simp] theorem writePayload_encPhase (i : Nat) (b : Byte) (s : State) : (writePayload i b s).encPhase = s.encPhase := rfl
@[simp] theorem writePayload_encByte (i : Nat) (b : Byte) (s : State) : (writePayload i b s).encByte = s.encByte := rfl
@[simp] theorem writePayload_encBit (i : Nat) (b : Byte) (s : State) : (writePayload i b s).encBit = s.encBit := rfl
@[simp] theorem writePayload_encPeriod (i : Nat) (b : Byte) (s : State) : (writePayload i b s).encPeriod = s.encPeriod := rfl
@[simp] theorem writePayload_agenda (i : Nat) (b : Byte) (s : State) : (writePayload i b s).agenda = s.agenda := rfl
@[simp] theorem writePayload_now (i : Nat) (b : Byte) (s : State) : (writePayload i b s).now = s.now := rfl
@[simp] theorem writePayload_hostData (i : Nat) (b : Byte) (s : State) : (writePayload i b s).hostData = s.hostData := rfl
@[simp] theorem writePayload_draws (i : Nat) (b : Byte) (s : State) : (writePayload i b s).draws = s.draws := rfl
@[simp] theorem writePayload_trainGen (i : Nat) (b : Byte) (s : State) : (writePayload i b s).trainGen = s.trainGen := rfl
@[simp] theorem writePayload_payGen (i : Nat) (b : Byte) (s : State) : (writePayload i b s).payGen = s.payGen := rfl
@[simp] theorem writePayload_past (i : Nat) (b : Byte) (s : State) : (writePayload i b s).past = s.past := rfl

@[simp] theorem emptyTrain_cfgIdleLevel (s : State) : (emptyTrain s).cfgIdleLevel = s.cfgIdleLevel := rfl
@[simp] theorem emptyTrain_cfgIdleLimit (s : State) : (emptyTrain s).cfgIdleLimit = s.cfgIdleLimit := rfl
@[simp] theorem emptyTrain_cfgMinPulses (s : State) : (emptyTrain s).cfgMinPulses = s.cfgMinPulses := rfl
@[simp] theorem emptyTrain_cfgCompUs (s : State) : (emptyTrain s).cfgCompUs = s.cfgCompUs := rfl
@[simp] theorem emptyTrain_cfgStopRem (s : State) : (emptyTrain s).cfgStopRem = s.cfgStopRem := rfl
@[simp] theorem emptyTrain_train (s : State) : (emptyTrain s).train = [] := rfl
@[simp] theorem emptyTrain_trainLen (s : State) : (emptyTrain s).trainLen = 0 := rfl
@[simp] theorem emptyTrain_payload (s : State) : (emptyTrain s).payload = s.payload := rfl
@[simp] theorem emptyTrain_payLen (s : State) : (emptyTrain s).payLen = s.payLen := rfl
@[simp] theorem emptyTrain_baud (s : State) : (emptyTrain s).baud = s.baud := rfl
@[simp] theorem emptyTrain_baudIdx (s : State) : (emptyTrain s).baudIdx = s.baudIdx := rfl
@[simp] theorem emptyTrain_x (s : State) : (emptyTrain s).x = s.x := rfl
@[simp] theorem emptyTrain_cmd (s : State) : (emptyTrain s).cmd = s.cmd := rfl
@[simp] theorem emptyTrain_cmdErr (s : State) : (emptyTrain s).cmdErr = s.cmdErr := rfl
@[simp] theorem emptyTrain_busy (s : State) : (emptyTrain s).busy = s.busy := rfl
@[simp] theorem emptyTrain_opActive (s : State) : (emptyTrain s).opActive = s.opActive := rfl
@[simp] theorem emptyTrain_capResult (s : State) : (emptyTrain s).capResult = s.capResult := rfl
@[simp] theorem emptyTrain_decResult (s : State) : (emptyTrain s).decResult = s.decResult := rfl
@[simp] theorem emptyTrain_decWarnLen (s : State) : (emptyTrain s).decWarnLen = s.decWarnLen := rfl
@[simp] theorem emptyTrain_encResult (s : State) : (emptyTrain s).encResult = s.encResult := rfl
@[simp] theorem emptyTrain_chkResult (s : State) : (emptyTrain s).chkResult = s.chkResult := rfl
@[simp] theorem emptyTrain_chkCalc (s : State) : (emptyTrain s).chkCalc = s.chkCalc := rfl
@[simp] theorem emptyTrain_chkRecv (s : State) : (emptyTrain s).chkRecv = s.chkRecv := rfl
@[simp] theorem emptyTrain_capState (s : State) : (emptyTrain s).capState = s.capState := rfl
@[simp] theorem emptyTrain_capT0 (s : State) : (emptyTrain s).capT0 = s.capT0 := rfl
@[simp] theorem emptyTrain_capNumIdle (s : State) : (emptyTrain s).capNumIdle = s.capNumIdle := rfl
@[simp] theorem emptyTrain_capPrev (s : State) : (emptyTrain s).capPrev = s.capPrev := rfl
@[simp] theorem emptyTrain_capOvf (s : State) : (emptyTrain s).capOvf = s.capOvf := rfl
@[simp] theorem emptyTrain_out (s : State) : (emptyTrain s).out = s.out := rfl
@[simp] theorem emptyTrain_encPhase (s : State) : (emptyTrain s).encPhase = s.encPhase := rfl
@[simp] theorem emptyTrain_encByte (s : State) : (emptyTrain s).encByte = s.encByte := rfl
@[simp] theorem emptyTrain_encBit (s : State) : (emptyTrain s).encBit = s.encBit := rfl
@[simp] theorem emptyTrain_encPeriod (s : State) : (emptyTrain s).encPeriod = s.encPeriod := rfl
@[simp] theorem emptyTrain_agenda (s : State) : (emptyTrain s).agenda = s.agenda := rfl
@[simp] theorem emptyTrain_now (s : State) : (emptyTrain s).now = s.now := rfl
@[simp] theorem emptyTrain_hostData (s : State) : (emptyTrain s).hostData = s.hostData := rfl
@[simp] theorem emptyTrain_draws (s : State) : (emptyTrain s).draws = s.draws + 1 := rfl
@[simp] theorem emptyTrain_trainGen (s : State) : (emptyTrain s).trainGen = s.draws + 1 := rfl
@[simp] theorem emptyTrain_payGen (s : State) : (emptyTrain s).payGen = s.payGen := rfl
@[simp] theorem emptyTrain_past (s : State) : (emptyTrain s).past = s.past := rfl

@[simp] theorem storePayload_cfgIdleLevel (p : List Byte) (s : State) : (storePayload p s).cfgIdleLevel = s.cfgIdleLevel := rfl
@[simp] theorem storePayload_cfgIdleLimit (p : List Byte) (s : State) : (storePayload p s).cfgIdleLimit = s.cfgIdleLimit := rfl
@[simp] theorem storePayload_cfgMinPulses (p : List Byte) (s : State) : (storePayload p s).cfgMinPulses = s.cfgMinPulses := rfl
@[simp] theorem storePayload_cfgCompUs (p : List Byte) (s : State) : (storePayload p s).cfgCompUs = s.cfgCompUs := rfl
@[simp] theorem storePayload_cfgStopRem (p : List Byte) (s : State) : (storePayload p s).cfgStopRem = s.cfgStopRem := rfl
@[simp] theorem storePayload_train (p : List Byte) (s : State) : (storePayload p s).train = s.train := rfl
@[simp] theorem storePayload_trainLen (p : List Byte) (s : State) : (storePayload p s).trainLen = s.trainLen := rfl
@[simp] theorem storePayload_payload (p : List Byte) (s : State) : (storePayload p s).payload = Memory.ofListFrom 0 p := rfl
@[simp] theorem storePayload_payLen (p : List Byte) (s : State) : (storePayload p s).payLen = p.length := rfl
@[simp] theorem storePayload_baud (p : List Byte) (s : State) : (storePayload p s).baud = s.baud := rfl
@[simp] theorem storePayload_baudIdx (p : List Byte) (s : State) : (storePayload p s).baudIdx = s.baudIdx := rfl
@[simp] theorem storePayload_x (p : List Byte) (s : State) : (storePayload p s).x = s.x := rfl
@[simp] theorem storePayload_cmd (p : List Byte) (s : State) : (storePayload p s).cmd = s.cmd := rfl
@[simp] theorem storePayload_cmdErr (p : List Byte) (s : State) : (storePayload p s).cmdErr = s.cmdErr := rfl
@[simp] theorem storePayload_busy (p : List Byte) (s : State) : (storePayload p s).busy = s.busy := rfl
@[simp] theorem storePayload_opActive (p : List Byte) (s : State) : (storePayload p s).opActive = s.opActive := rfl
@[simp] theorem storePayload_capResult (p : List Byte) (s : State) : (storePayload p s).capResult = s.capResult := rfl
@[simp] theorem storePayload_decResult (p : List Byte) (s : State) : (storePayload p s).decResult = s.decResult := rfl
@[simp] theorem storePayload_decWarnLen (p : List Byte) (s : State) : (storePayload p s).decWarnLen = s.decWarnLen := rfl
@[simp] theorem storePayload_encResult (p : List Byte) (s : State) : (storePayload p s).encResult = s.encResult := rfl
@[simp] theorem storePayload_chkResult (p : List Byte) (s : State) : (storePayload p s).chkResult = s.chkResult := rfl
@[simp] theorem storePayload_chkCalc (p : List Byte) (s : State) : (storePayload p s).chkCalc = s.chkCalc := rfl
@[simp] theorem storePayload_chkRecv (p : List Byte) (s : State) : (storePayload p s).chkRecv = s.chkRecv := rfl
@[simp] theorem storePayload_capState (p : List Byte) (s : State) : (storePayload p s).capState = s.capState := rfl
@[simp] theorem storePayload_capT0 (p : List Byte) (s : State) : (storePayload p s).capT0 = s.capT0 := rfl
@[simp] theorem storePayload_capNumIdle (p : List Byte) (s : State) : (storePayload p s).capNumIdle = s.capNumIdle := rfl
@[simp] theorem storePayload_capPrev (p : List Byte) (s : State) : (storePayload p s).capPrev = s.capPrev := rfl
@[simp] theorem storePayload_capOvf (p : List Byte) (s : State) : (storePayload p s).capOvf = s.capOvf := rfl
@[simp] theorem storePayload_out (p : List Byte) (s : State) : (storePayload p s).out = s.out := rfl
@[simp] theorem storePayload_encPhase (p : List Byte) (s : State) : (storePayload p s).encPhase = s.encPhase := rfl
@[simp] theorem storePayload_encByte (p : List Byte) (s : State) : (storePayload p s).encByte = s.encByte := rfl
@[simp] theorem storePayload_encBit (p : List Byte) (s : State) : (storePayload p s).encBit = s.encBit := rfl
@[simp] theorem storePayload_encPeriod (p : List Byte) (s : State) : (storePayload p s).encPeriod = s.encPeriod := rfl
@[simp] theorem storePayload_agenda (p : List Byte) (s : State) : (storePayload p s).agenda = s.agenda := rfl
@[simp] theorem storePayload_now (p : List Byte) (s : State) : (storePayload p s).now = s.now := rfl
@[simp] theorem storePayload_hostData (p : List Byte) (s : State) : (storePayload p s).hostData = s.hostData := rfl
@[simp] theorem storePayload_draws (p : List Byte) (s : State) : (storePayload p s).draws = s.draws + 1 := rfl
@[simp] theorem storePayload_trainGen (p : List Byte) (s : State) : (storePayload p s).trainGen = s.trainGen := rfl
@[simp] theorem storePayload_payGen (p : List Byte) (s : State) : (storePayload p s).payGen = s.draws + 1 := rfl
@[simp] theorem storePayload_past (p : List Byte) (s : State) : (storePayload p s).past = s.past := rfl

@[simp] theorem selectRate_cfgIdleLevel (n : Nat) (s : State) : (selectRate n s).cfgIdleLevel = s.cfgIdleLevel := rfl
@[simp] theorem selectRate_cfgIdleLimit (n : Nat) (s : State) : (selectRate n s).cfgIdleLimit = s.cfgIdleLimit := rfl
@[simp] theorem selectRate_cfgMinPulses (n : Nat) (s : State) : (selectRate n s).cfgMinPulses = s.cfgMinPulses := rfl
@[simp] theorem selectRate_cfgCompUs (n : Nat) (s : State) : (selectRate n s).cfgCompUs = s.cfgCompUs := rfl
@[simp] theorem selectRate_cfgStopRem (n : Nat) (s : State) : (selectRate n s).cfgStopRem = s.cfgStopRem := rfl
@[simp] theorem selectRate_train (n : Nat) (s : State) : (selectRate n s).train = s.train := rfl
@[simp] theorem selectRate_trainLen (n : Nat) (s : State) : (selectRate n s).trainLen = s.trainLen := rfl
@[simp] theorem selectRate_payload (n : Nat) (s : State) : (selectRate n s).payload = s.payload := rfl
@[simp] theorem selectRate_payLen (n : Nat) (s : State) : (selectRate n s).payLen = s.payLen := rfl
@[simp] theorem selectRate_baud (n : Nat) (s : State) : (selectRate n s).baud = BitVec.ofNat 32 (readLut n) := rfl
@[simp] theorem selectRate_baudIdx (n : Nat) (s : State) : (selectRate n s).baudIdx = BitVec.ofNat 4 n := rfl
@[simp] theorem selectRate_x (n : Nat) (s : State) : (selectRate n s).x = s.x := rfl
@[simp] theorem selectRate_cmd (n : Nat) (s : State) : (selectRate n s).cmd = s.cmd := rfl
@[simp] theorem selectRate_cmdErr (n : Nat) (s : State) : (selectRate n s).cmdErr = s.cmdErr := rfl
@[simp] theorem selectRate_busy (n : Nat) (s : State) : (selectRate n s).busy = s.busy := rfl
@[simp] theorem selectRate_opActive (n : Nat) (s : State) : (selectRate n s).opActive = s.opActive := rfl
@[simp] theorem selectRate_capResult (n : Nat) (s : State) : (selectRate n s).capResult = s.capResult := rfl
@[simp] theorem selectRate_decResult (n : Nat) (s : State) : (selectRate n s).decResult = s.decResult := rfl
@[simp] theorem selectRate_decWarnLen (n : Nat) (s : State) : (selectRate n s).decWarnLen = s.decWarnLen := rfl
@[simp] theorem selectRate_encResult (n : Nat) (s : State) : (selectRate n s).encResult = s.encResult := rfl
@[simp] theorem selectRate_chkResult (n : Nat) (s : State) : (selectRate n s).chkResult = s.chkResult := rfl
@[simp] theorem selectRate_chkCalc (n : Nat) (s : State) : (selectRate n s).chkCalc = s.chkCalc := rfl
@[simp] theorem selectRate_chkRecv (n : Nat) (s : State) : (selectRate n s).chkRecv = s.chkRecv := rfl
@[simp] theorem selectRate_capState (n : Nat) (s : State) : (selectRate n s).capState = s.capState := rfl
@[simp] theorem selectRate_capT0 (n : Nat) (s : State) : (selectRate n s).capT0 = s.capT0 := rfl
@[simp] theorem selectRate_capNumIdle (n : Nat) (s : State) : (selectRate n s).capNumIdle = s.capNumIdle := rfl
@[simp] theorem selectRate_capPrev (n : Nat) (s : State) : (selectRate n s).capPrev = s.capPrev := rfl
@[simp] theorem selectRate_capOvf (n : Nat) (s : State) : (selectRate n s).capOvf = s.capOvf := rfl
@[simp] theorem selectRate_out (n : Nat) (s : State) : (selectRate n s).out = s.out := rfl
@[simp] theorem selectRate_encPhase (n : Nat) (s : State) : (selectRate n s).encPhase = s.encPhase := rfl
@[simp] theorem selectRate_encByte (n : Nat) (s : State) : (selectRate n s).encByte = s.encByte := rfl
@[simp] theorem selectRate_encBit (n : Nat) (s : State) : (selectRate n s).encBit = s.encBit := rfl
@[simp] theorem selectRate_encPeriod (n : Nat) (s : State) : (selectRate n s).encPeriod = s.encPeriod := rfl
@[simp] theorem selectRate_agenda (n : Nat) (s : State) : (selectRate n s).agenda = s.agenda := rfl
@[simp] theorem selectRate_now (n : Nat) (s : State) : (selectRate n s).now = s.now := rfl
@[simp] theorem selectRate_hostData (n : Nat) (s : State) : (selectRate n s).hostData = s.hostData := rfl
@[simp] theorem selectRate_draws (n : Nat) (s : State) : (selectRate n s).draws = s.draws := rfl
@[simp] theorem selectRate_trainGen (n : Nat) (s : State) : (selectRate n s).trainGen = s.trainGen := rfl
@[simp] theorem selectRate_payGen (n : Nat) (s : State) : (selectRate n s).payGen = s.payGen := rfl
@[simp] theorem selectRate_past (n : Nat) (s : State) : (selectRate n s).past = s.past := rfl

@[simp] theorem afterMove_cfgIdleLevel (s : State) : (afterMove s).cfgIdleLevel = s.cfgIdleLevel := rfl
@[simp] theorem afterMove_cfgIdleLimit (s : State) : (afterMove s).cfgIdleLimit = s.cfgIdleLimit := rfl
@[simp] theorem afterMove_cfgMinPulses (s : State) : (afterMove s).cfgMinPulses = s.cfgMinPulses := rfl
@[simp] theorem afterMove_cfgCompUs (s : State) : (afterMove s).cfgCompUs = s.cfgCompUs := rfl
@[simp] theorem afterMove_cfgStopRem (s : State) : (afterMove s).cfgStopRem = s.cfgStopRem := rfl
@[simp] theorem afterMove_train (s : State) : (afterMove s).train = s.train := rfl
@[simp] theorem afterMove_trainLen (s : State) : (afterMove s).trainLen = s.trainLen := rfl
@[simp] theorem afterMove_payload (s : State) : (afterMove s).payload = s.payload := rfl
@[simp] theorem afterMove_payLen (s : State) : (afterMove s).payLen = s.payLen := rfl
@[simp] theorem afterMove_baud (s : State) : (afterMove s).baud = s.baud := rfl
@[simp] theorem afterMove_baudIdx (s : State) : (afterMove s).baudIdx = s.baudIdx := rfl
@[simp] theorem afterMove_x (s : State) : (afterMove s).x = s.x := rfl
@[simp] theorem afterMove_cmd (s : State) : (afterMove s).cmd = s.cmd := rfl
@[simp] theorem afterMove_cmdErr (s : State) : (afterMove s).cmdErr = s.cmdErr := rfl
@[simp] theorem afterMove_busy (s : State) : (afterMove s).busy = s.busy := rfl
@[simp] theorem afterMove_opActive (s : State) : (afterMove s).opActive = s.opActive := rfl
@[simp] theorem afterMove_capResult (s : State) : (afterMove s).capResult = s.capResult := rfl
@[simp] theorem afterMove_decResult (s : State) : (afterMove s).decResult = s.decResult := rfl
@[simp] theorem afterMove_decWarnLen (s : State) : (afterMove s).decWarnLen = s.decWarnLen := rfl
@[simp] theorem afterMove_encResult (s : State) : (afterMove s).encResult = s.encResult := rfl
@[simp] theorem afterMove_chkResult (s : State) : (afterMove s).chkResult = s.chkResult := rfl
@[simp] theorem afterMove_chkCalc (s : State) : (afterMove s).chkCalc = s.chkCalc := rfl
@[simp] theorem afterMove_chkRecv (s : State) : (afterMove s).chkRecv = s.chkRecv := rfl
@[simp] theorem afterMove_capState (s : State) : (afterMove s).capState = s.capState := rfl
@[simp] theorem afterMove_capT0 (s : State) : (afterMove s).capT0 = s.capT0 := rfl
@[simp] theorem afterMove_capNumIdle (s : State) : (afterMove s).capNumIdle = s.capNumIdle := rfl
@[simp] theorem afterMove_capPrev (s : State) : (afterMove s).capPrev = s.capPrev := rfl
@[simp] theorem afterMove_capOvf (s : State) : (afterMove s).capOvf = s.capOvf := rfl
@[simp] theorem afterMove_out (s : State) : (afterMove s).out = s.out := rfl
@[simp] theorem afterMove_encPhase (s : State) : (afterMove s).encPhase = s.encPhase := rfl
@[simp] theorem afterMove_encByte (s : State) : (afterMove s).encByte = s.encByte := rfl
@[simp] theorem afterMove_encBit (s : State) : (afterMove s).encBit = s.encBit := rfl
@[simp] theorem afterMove_encPeriod (s : State) : (afterMove s).encPeriod = s.encPeriod := rfl
@[simp] theorem afterMove_agenda (s : State) : (afterMove s).agenda = s.agenda.tail := rfl
@[simp] theorem afterMove_now (s : State) : (afterMove s).now = s.now := rfl
@[simp] theorem afterMove_hostData (s : State) : (afterMove s).hostData = s.hostData := rfl
@[simp] theorem afterMove_draws (s : State) : (afterMove s).draws = s.draws := rfl
@[simp] theorem afterMove_trainGen (s : State) : (afterMove s).trainGen = s.trainGen := rfl
@[simp] theorem afterMove_payGen (s : State) : (afterMove s).payGen = s.payGen := rfl
@[simp] theorem afterMove_past (s : State) : (afterMove s).past = s.past := rfl

@[simp] theorem raise_captureTooShort (s : State) : raise .captureTooShort s = { emptyTrain s with capResult := .tooShort } := rfl
@[simp] theorem raise_captureOverflow (s : State) : raise .captureOverflow s = { emptyTrain s with capResult := .overflow } := rfl
@[simp] theorem raise_frameLengthWarning (s : State) : raise .frameLengthWarning s = { s with decWarnLen := true } := rfl
@[simp] theorem raise_decodeNoGroup (s : State) : raise .decodeNoGroup s = { s with decResult := .noGroup, payLen := 0 } := rfl
@[simp] theorem raise_decodeZeroThreshold (s : State) : raise .decodeZeroThreshold s = { s with decResult := .zeroThreshold, payLen := 0 } := rfl
@[simp] theorem raise_encodeZeroRate (s : State) : raise .encodeZeroRate s = { s with encResult := .zeroRate } := rfl
@[simp] theorem raise_encodePeriodUnderflow (s : State) : raise .encodePeriodUnderflow s = { s with encResult := .periodUnderflow } := rfl
@[simp] theorem raise_checksumMismatch (s : State) : raise .checksumMismatch s = { s with chkResult := .mismatch } := rfl
@[simp] theorem raise_checksumEmpty (s : State) : raise .checksumEmpty s = { s with chkResult := .empty, chkCalc := 0, chkRecv := 0 } := rfl
@[simp] theorem raise_illegalCommand (s : State) : raise .illegalCommand s = { s with cmdErr := .illegal } := rfl
@[simp] theorem raise_rejectedBusy (s : State) : raise .rejectedBusy s = { s with cmdErr := .rejectedBusy } := rfl
@[simp] theorem raise_badArgument (s : State) : raise .badArgument s = { s with cmdErr := .badArg } := rfl

end Sys2Proof.Machine
end

