-- ==== Sys2Proof/Laws/Ops.lean ====
section
/-! SUPPORT. What each shared operation can do, said once: issuing a command, decoding a word, one sample, one step of the
encoder, one move of an agent. -/

namespace Sys2Proof.Machine

/-- The sequencer's argument check is the well-formedness of the instruction. -/
theorem argumentLegal_eq_wellFormed (i : Instr) : argumentLegal i = i.wellFormed := by
  cases i <;> simp [argumentLegal, Instr.wellFormed, lut, Nat.lt_succ_iff]

/-- A command written while BUSY = 1 is lost. -/
theorem issue_busy {i : Instr} {body : State → State} {s : State} (h : s.busy = true) :
    issue i body s = .next (raise .rejectedBusy s) := by simp [issue, h]

/-- A reserved argument is refused. -/
theorem issue_badArgument {i : Instr} {body : State → State} {s : State} (h : s.busy = false)
    (ha : argumentLegal i = false) : issue i body s = .next (raise .badArgument s) := by simp [issue, h, ha]

/-- A legal command is accepted and its body runs. -/
theorem issue_accept {i : Instr} {body : State → State} {s : State} (h : s.busy = false)
    (ha : argumentLegal i = true) : issue i body s = .next (body (accept (commandWord i) s)) := by
  simp [issue, h, ha]

/-- Everything issuing a command can do: it always answers a next state, one of three. -/
theorem issue_cases (i : Instr) (body : State → State) (s : State) :
    (s.busy = true ∧ issue i body s = .next (raise .rejectedBusy s)) ∨
    (s.busy = false ∧ argumentLegal i = false ∧ issue i body s = .next (raise .badArgument s)) ∨
    (s.busy = false ∧ argumentLegal i = true ∧ issue i body s = .next (body (accept (commandWord i) s))) := by
  cases hb : s.busy
  · cases ha : argumentLegal i
    · exact .inr (.inl ⟨rfl, rfl, issue_badArgument hb ha⟩)
    · exact .inr (.inr ⟨rfl, rfl, issue_accept hb ha⟩)
  · exact .inl ⟨rfl, issue_busy hb⟩

/-- Issuing a command always answers a next state. -/
theorem issue_answers_next (i : Instr) (body : State → State) (s : State) : ∃ t, issue i body s = .next t := by
  rcases issue_cases i body s with h | h | h
  exacts [⟨_, h.2⟩, ⟨_, h.2.2⟩, ⟨_, h.2.2⟩]

/-- Every instruction answers a next state in every state. -/
theorem exec_answers_next (i : Instr) (s : State) : ∃ t, exec i s = .next t := by
  cases i
  case capture => exact issue_answers_next .capture captureStart s
  case decode => exact issue_answers_next .decode (fun t => complete (decodeTrain Config.arith t)) s
  case snap => exact issue_answers_next .snap (fun t => complete (snapRate t)) s
  case selrate idx => exact issue_answers_next (.selrate idx) (fun t => complete (selectRate idx.toNat t)) s
  case encode => exact issue_answers_next .encode encodeStart s
  case validate => exact issue_answers_next .validate (fun t => complete (validatePayload t)) s
  case lineStart => exact ⟨_, rfl⟩
  case lineBit0 => exact ⟨_, rfl⟩
  case lineBit1 => exact ⟨_, rfl⟩
  case lineStop => exact ⟨_, rfl⟩

/-- A command word never decodes to a line symbol. -/
theorem decodeCmd_isCommand {w : Byte} {i : Instr} (h : decodeCmd w = .ok i) : i.isCommand = true := by
  have na : ∀ j : Instr, noArgument j w = .ok i → i = j := by
    intro j hj
    simp only [noArgument] at hj
    split at hj
    · exact (Except.ok.inj hj).symm
    · cases hj
  simp only [decodeCmd] at h
  split at h
  · rw [na _ h]; rfl
  split at h
  · rw [na _ h]; rfl
  split at h
  · rw [na _ h]; rfl
  split at h
  · rw [← Except.ok.inj h]; rfl
  split at h
  · rw [na _ h]; rfl
  split at h
  · rw [na _ h]; rfl
  · cases h

/-- One byte is decoded as one command word. -/
theorem decodeBytes_one (w : Byte) : decodeBytes [w] = (decodeCmd w).map fun i => (i, []) := rfl

/-- The agenda's first move is the one made. -/
theorem step_cons {s : State} {e : Event} {l : List Event} (h : s.agenda = e :: l) :
    step s = takeEvent e { s with agenda := l } := by
  simp [step, nextMove, afterMove, h]

/-- With an empty agenda only the engine moves. -/
theorem step_nil {s : State} (h : s.agenda = []) : step s = .next (engineStep s) := by
  have : afterMove s = s := by
    cases s
    simp only at h
    subst h
    rfl
  simp [step, nextMove, this, h, takeEvent]

/-- Everything an edge can do: nothing, one more entry, or an entry lost because TRAIN is full. -/
theorem captureEdge_cases (v : Bit) (t : Nat) (s : State) :
    (v = s.capPrev ∧ captureEdge v t s = s) ∨
    (v ≠ s.capPrev ∧ s.trainLen < Config.trainDepth ∧
      captureEdge v t s = { writeTrain s.trainLen { level := v, dur := capturedDur s.capT0 t } s with
        trainLen := s.trainLen + 1, capT0 := t }) ∨
    (v ≠ s.capPrev ∧ Config.trainDepth ≤ s.trainLen ∧
      captureEdge v t s = { s with capOvf := true, capT0 := t }) := by
  by_cases hv : v = s.capPrev
  · exact .inl ⟨hv, by simp [captureEdge, hv]⟩
  · by_cases hl : s.trainLen < Config.trainDepth
    · exact .inr (.inl ⟨hv, hl, by simp [captureEdge, hv, hl]⟩)
    · exact .inr (.inr ⟨hv, by omega, by simp [captureEdge, hv, hl]⟩)

/-- The end of a capture that did not overflow and is long enough. -/
theorem captureFinish_ok {s : State} (ho : s.capOvf = false) (hl : s.cfgMinPulses.toNat ≤ s.trainLen) :
    captureFinish s = { s with capResult := .ok, capState := .idle, busy := false } := by
  simp [captureFinish, ho, hl, complete]

/-- The end of a capture that did not overflow and is too short. -/
theorem captureFinish_tooShort {s : State} (ho : s.capOvf = false) (hl : s.trainLen < s.cfgMinPulses.toNat) :
    captureFinish s = { emptyTrain s with capResult := .tooShort, capState := .idle, busy := false } := by
  have : ¬ s.cfgMinPulses.toNat ≤ s.trainLen := by omega
  simp [captureFinish, ho, this, complete]

/-- The end of a capture that overflowed, whatever its length. -/
theorem captureFinish_overflow {s : State} (ho : s.capOvf = true) :
    captureFinish s = { emptyTrain s with capResult := .overflow, capState := .idle, busy := false } := by
  simp [captureFinish, ho, complete]

/-- A sample outside CAPTURE changes nothing but the line's clock. -/
theorem lineSample_idle {s : State} (v : Bit) (dt : Nat) (h : s.capState = .idle) :
    lineSample v dt s = { s with now := s.now + dt } := by
  simp [lineSample, captureSample, h]

/-- A sample while waiting: it starts the run if it reads the active level. -/
theorem lineSample_wait {s : State} (v : Bit) (dt : Nat) (h : s.capState = .wait) :
    lineSample v dt s =
      if v = activeLevel s then startRun (s.now + dt) { s with now := s.now + dt } else { s with now := s.now + dt } := by
  simp [lineSample, captureSample, h, activeLevel]

/-- A sample in the run. -/
theorem lineSample_run {s : State} (v : Bit) (dt : Nat) (h : s.capState = .run) :
    lineSample v dt s = captureRun v (s.now + dt) { s with now := s.now + dt } := by
  simp [lineSample, captureSample, h]

/-- Going to the next data bit touches only the encoder's position. -/
theorem nextBit_cases (s : State) :
    ∃ p j k, nextBit s = { s with encPhase := p, encByte := j, encBit := k } := by
  by_cases h : s.encBit.val < 7
  · exact ⟨.bitMark, s.encByte, s.encBit + 1, by simp [nextBit, h]⟩
  · by_cases h' : s.encByte + 1 < s.payLen
    · exact ⟨.bitMark, s.encByte + 1, 0, by simp [nextBit, h, h']⟩
    · exact ⟨.stopMark, s.encByte, s.encBit, by simp [nextBit, h, h']⟩

/-- One step of the encoder touches only OUT, its own position, ENC_RESULT and BUSY; it appends at most one event. -/
theorem encodeStep_cases (s : State) :
    ∃ l p j k r b, l.length ≤ 1 ∧ encodeStep s =
      { s with out := s.out ++ l, encPhase := p, encByte := j, encBit := k, encResult := r, busy := b } := by
  cases h : s.encPhase
  case idle => exact ⟨[], .idle, s.encByte, s.encBit, s.encResult, s.busy, Nat.zero_le 1, by cases s; simp_all [encodeStep]⟩
  case bitGap =>
    obtain ⟨p, j, k, e⟩ := nextBit_cases (emitSpace (currentSymbol s) s)
    exact ⟨[_], p, j, k, s.encResult, s.busy, le_refl 1, by simp only [encodeStep, h]; rw [e]; rfl⟩
  case stopGap => exact ⟨[_], .idle, s.encByte, s.encBit, .ok, false, le_refl 1, by simp only [encodeStep, h]; rfl⟩
  case startMark =>
    exact ⟨[_], .startGap, s.encByte, s.encBit, s.encResult, s.busy, le_refl 1, by simp only [encodeStep, h]; rfl⟩
  case startGap =>
    exact ⟨[_], (if 0 < s.payLen then .bitMark else .stopMark), s.encByte, s.encBit, s.encResult, s.busy, le_refl 1, by
      simp only [encodeStep, h]; rfl⟩
  case bitMark =>
    exact ⟨[_], .bitGap, s.encByte, s.encBit, s.encResult, s.busy, le_refl 1, by simp only [encodeStep, h]; rfl⟩
  case stopMark =>
    exact ⟨[_], .stopGap, s.encByte, s.encBit, s.encResult, s.busy, le_refl 1, by simp only [encodeStep, h]; rfl⟩

/-- A move of the engine is one of three. -/
theorem engineStep_cases (s : State) :
    (s.encPhase ≠ .idle ∧ engineStep s = encodeStep s) ∨
    (s.encPhase = .idle ∧ s.capState ≠ .idle ∧ engineStep s = drawSample s) ∨
    (s.encPhase = .idle ∧ s.capState = .idle ∧ engineStep s = s) := by
  by_cases he : s.encPhase = .idle
  · by_cases hc : s.capState = .idle
    · exact .inr (.inr ⟨he, hc, by simp [engineStep, he, hc]⟩)
    · exact .inr (.inl ⟨he, hc, by simp [engineStep, he, hc]⟩)
  · exact .inl ⟨he, by simp [engineStep, he]⟩

/-- A host read changes only the read port and the count of free values, or stops at an element that does not exist. -/
theorem hostRead_cases (r : HostRead) (s : State) :
    (∃ d k, hostRead r s = .next { s with hostData := d, draws := k }) ∨
    (∃ i, hostRead r s = .fault (.noSuchElement i)) := by
  have hv : ∀ {w : Nat} (v : BitVec w), ∃ d k, (.next (showValue v s) : Outcome) = .next { s with hostData := d, draws := k } :=
    fun v => ⟨v.setWidth 33, s.draws, rfl⟩
  have hb : ∀ {w : Nat} (v : BitVec w), ∃ d k, (.next (showBuffer v s) : Outcome) = .next { s with hostData := d, draws := k } := by
    intro w v
    unfold showBuffer
    split
    · exact ⟨_, _, rfl⟩
    · exact hv v
  cases r
  case trainEntry i =>
    simp only [hostRead]
    split
    · exact .inl (hb _)
    · exact .inr ⟨i, rfl⟩
  case payByte i =>
    simp only [hostRead]
    split
    · exact .inl (hb _)
    · exact .inr ⟨i, rfl⟩
  case trainLen => exact .inl (hb _)
  case payLen => exact .inl (hb _)
  all_goals exact .inl (hv _)

/-- A write to CMD always answers a next state. -/
theorem commandWrite_answers_next (w : Byte) (s : State) : ∃ t, commandWrite w s = .next t := by
  unfold commandWrite
  split
  · exact ⟨_, rfl⟩
  · split
    · exact exec_answers_next _ _
    · exact ⟨_, rfl⟩

/-- The agenda's moves do not touch the agenda: a host write leaves it as it is. -/
theorem hostWrite_agenda (r : HostWrite) (s : State) : (hostWrite r s).agenda = s.agenda := by
  unfold hostWrite
  split
  · rfl
  · cases r <;> simp only [writeRegister] <;> (try split) <;> rfl

end Sys2Proof.Machine
end

