-- ==== Sys2Proof/Laws/PerInstr.lean ====
section
/-! SUPPORT. The statements about every instruction as syntax, one lemma per constructor. -/

namespace Sys2Proof

/-- The instruction's command word is its row's: `word AND mask = match` (30_encoding.md rule R77); a line symbol has no word. -/
def Laws.RowMatch.Statement (i : Instr) : Prop :=
  (∀ w, encodeCmd i = some w → w &&& rowMask i = rowMatch i) ∧ ((encodeCmd i).isSome = i.isCommand)

theorem Laws.RowMatch.capture : Laws.RowMatch.Statement .capture := by
  refine ⟨fun w h => ?_, rfl⟩; cases h; decide

theorem Laws.RowMatch.decode : Laws.RowMatch.Statement .decode := by
  refine ⟨fun w h => ?_, rfl⟩; cases h; decide

theorem Laws.RowMatch.snap : Laws.RowMatch.Statement .snap := by
  refine ⟨fun w h => ?_, rfl⟩; cases h; decide

theorem Laws.RowMatch.selrate (idx : Nibble) : Laws.RowMatch.Statement (.selrate idx) := by
  refine ⟨fun w h => ?_, rfl⟩
  cases h
  revert idx
  decide

theorem Laws.RowMatch.encode : Laws.RowMatch.Statement .encode := by
  refine ⟨fun w h => ?_, rfl⟩; cases h; decide

theorem Laws.RowMatch.validate : Laws.RowMatch.Statement .validate := by
  refine ⟨fun w h => ?_, rfl⟩; cases h; decide

theorem Laws.RowMatch.lineStart : Laws.RowMatch.Statement .lineStart := by
  refine ⟨fun w h => ?_, rfl⟩; cases h

theorem Laws.RowMatch.lineBit0 : Laws.RowMatch.Statement .lineBit0 := by
  refine ⟨fun w h => ?_, rfl⟩; cases h

theorem Laws.RowMatch.lineBit1 : Laws.RowMatch.Statement .lineBit1 := by
  refine ⟨fun w h => ?_, rfl⟩; cases h

theorem Laws.RowMatch.lineStop : Laws.RowMatch.Statement .lineStop := by
  refine ⟨fun w h => ?_, rfl⟩; cases h

end Sys2Proof
end

