-- ==== Sys2Proof/Laws/Units.lean ====
section
/-! SUPPORT. What one sample does to a capture, what the rate selector answers, the three outcomes of DECODE, and what each
phase of the encoder does, said once. -/

namespace Sys2Proof.Machine

/-- An edge touches only TRAIN, TRAIN_LEN, CAP_T0 and CAP_OVF. -/
theorem captureEdge_frame (v : Bit) (t : Nat) (s : State) :
    ∃ m l t0 o, captureEdge v t s = { s with train := m, trainLen := l, capT0 := t0, capOvf := o } := by
  rcases captureEdge_cases v t s with ⟨_, e⟩ | ⟨_, _, e⟩ | ⟨_, _, e⟩
  · exact ⟨s.train, s.trainLen, s.capT0, s.capOvf, e⟩
  · exact ⟨_, _, _, s.capOvf, e⟩
  · exact ⟨s.train, s.trainLen, t, true, e⟩

/-- The idle counter after a sample at level `v`. -/
def idleCount (v : Bit) (s : State) : Word := if v = s.cfgIdleLevel then s.capNumIdle + 1 else 0

/-- A sample of the run at or below the limit: the edge, the counter and CAP_PREV. -/
theorem captureRun_goesOn {v : Bit} {t : Nat} {s : State} (h : (idleCount v s).toNat ≤ s.cfgIdleLimit.toNat) :
    captureRun v t s = { captureEdge v t s with capNumIdle := idleCount v s, capPrev := v } := by
  obtain ⟨m, l, t0, o, e⟩ := captureEdge_frame v t s
  have hn : ¬ s.cfgIdleLimit.toNat < (idleCount v s).toNat := not_lt.2 h
  unfold captureRun
  rw [e]
  exact if_neg hn

/-- The sample that takes the counter above the limit: the edge, the counter, and the end of the capture. -/
theorem captureRun_ends {v : Bit} {t : Nat} {s : State} (h : s.cfgIdleLimit.toNat < (idleCount v s).toNat) :
    captureRun v t s = captureFinish { captureEdge v t s with capNumIdle := idleCount v s } := by
  obtain ⟨m, l, t0, o, e⟩ := captureEdge_frame v t s
  unfold captureRun
  rw [e]
  exact if_pos h

/-- A sample at the level of the sample before it is no edge. -/
theorem captureEdge_same {v : Bit} {t : Nat} {s : State} (h : v = s.capPrev) : captureEdge v t s = s := if_pos h

/-- The rate selector answers an index of the table. -/
theorem nearestIdx_le (x : Nat) : nearestIdx x ≤ 12 := by
  have keep : ∀ (l : List Nat) (b : Nat × Nat), (∀ i ∈ l, i ≤ 12) → b.1 ≤ 12 → (l.foldl (nearestStep x) b).1 ≤ 12 := by
    intro l
    induction l with
    | nil => exact fun _ _ h => h
    | cons a l ih =>
      intro b hl hb
      refine ih _ (fun i hi => hl i (List.mem_cons_of_mem _ hi)) ?_
      unfold nearestStep
      split
      · exact hl a List.mem_cons_self
      · exact hb
  refine keep _ _ (fun i hi => ?_) (Nat.zero_le 12)
  rw [List.mem_range'] at hi
  omega

/-- The warning is one write of DEC_WARN_LEN. -/
theorem warnLength_eq (s : State) : warnLength s = { s with decWarnLen := frameLengthWrong s } := by
  cases h : frameLengthWrong s <;> simp [warnLength, h]

/-- DECODE without a whole group. -/
theorem decodeTrain_noGroup {a : Arith} {s : State} (h : analysedLen s = 0) :
    decodeTrain a s = { s with decWarnLen := frameLengthWrong s, decResult := .noGroup, payLen := 0 } := by
  unfold decodeTrain
  rw [warnLength_eq]
  exact if_pos h

/-- DECODE with a threshold of 0. -/
theorem decodeTrain_zeroThreshold {a : Arith} {s : State} (h : analysedLen s ≠ 0)
    (hz : thresholdZero a (analysedLen s) (markSum s) = true) :
    decodeTrain a s = { s with decWarnLen := frameLengthWrong s, decResult := .zeroThreshold, payLen := 0 } := by
  unfold decodeTrain
  rw [warnLength_eq]
  exact (if_neg h).trans (if_pos hz)

/-- DECODE of any other train. -/
theorem decodeTrain_ok {a : Arith} {s : State} (h : analysedLen s ≠ 0)
    (hz : thresholdZero a (analysedLen s) (markSum s) = false) :
    decodeTrain a s = storeDecoded a { s with decWarnLen := frameLengthWrong s } := by
  unfold decodeTrain
  rw [warnLength_eq]
  exact (if_neg h).trans (if_neg (Bool.not_eq_true _ ▸ hz))

/-- Every outcome of DECODE leaves what CAPTURE, ENCODE and VALIDATE report, the configuration and TRAIN as they are. -/
theorem decodeTrain_frame (a : Arith) (s : State) :
    ∃ p l b i r w g d, decodeTrain a s =
      { s with payload := p, payLen := l, baud := b, baudIdx := i, decResult := r, decWarnLen := w, payGen := g,
               draws := d } := by
  by_cases h : analysedLen s = 0
  · exact ⟨_, _, _, _, _, _, _, _, decodeTrain_noGroup h⟩
  · cases hz : thresholdZero a (analysedLen s) (markSum s)
    · rw [decodeTrain_ok h hz]
      unfold storeDecoded
      generalize nearestIdx _ = n
      exact ⟨_, _, _, _, _, _, _, _, rfl⟩
    · exact ⟨_, _, _, _, _, _, _, _, decodeTrain_zeroThreshold h hz⟩

/-- The start mark. -/
theorem encodeStep_startMark {s : State} (h : s.encPhase = .startMark) :
    encodeStep s = { emitMark .lineStart s with encPhase := .startGap } := by simp only [encodeStep, h]

/-- The gap after the start mark. -/
theorem encodeStep_startGap {s : State} (h : s.encPhase = .startGap) :
    encodeStep s = { emitSpace .lineStart s with encPhase := if 0 < s.payLen then .bitMark else .stopMark } := by
  simp only [encodeStep, h]

/-- The mark of a data bit. -/
theorem encodeStep_bitMark {s : State} (h : s.encPhase = .bitMark) :
    encodeStep s = { emitMark (currentSymbol s) s with encPhase := .bitGap } := by simp only [encodeStep, h]

/-- The gap of a data bit. -/
theorem encodeStep_bitGap {s : State} (h : s.encPhase = .bitGap) :
    encodeStep s = nextBit (emitSpace (currentSymbol s) s) := by simp only [encodeStep, h]

/-- The stop mark. -/
theorem encodeStep_stopMark {s : State} (h : s.encPhase = .stopMark) :
    encodeStep s = { emitMark .lineStop s with encPhase := .stopGap } := by simp only [encodeStep, h]

/-- The gap after the stop mark completes ENCODE. -/
theorem encodeStep_stopGap {s : State} (h : s.encPhase = .stopGap) :
    encodeStep s = { emitSpace .lineStop s with encResult := .ok, encPhase := .idle, busy := false } := by
  simp only [encodeStep, h]
  rfl

end Sys2Proof.Machine
end

