-- ==== Sys2Proof/Tests/Slice0.lean ====
section
/-! SUPPORT. Small tests against words and vectors of the spec, and for every statement with hypotheses a witness that meets
them. -/

namespace Sys2Proof.Tests

open Sys2Proof.Machine

/-! ## Well-formedness -/

theorem test_wellFormed_refuses_reserved_index :
    Instr.wellFormed (.selrate 13) = false ∧ Instr.wellFormed (.selrate 15) = false := by decide

theorem test_wellFormed_accepts_last_index : Instr.wellFormed (.selrate 12) = true := by decide

/-! ## Decoding: words written out from the opcode table and rule R77 -/

theorem test_decode_capture : decodeBytes [0b00010000, 0xAA] = .ok (.capture, [0xAA]) := by decide
theorem test_decode_decode : decodeBytes [0b00100000] = .ok (.decode, []) := by decide
theorem test_decode_snap : decodeBytes [0b00110000] = .ok (.snap, []) := by decide
theorem test_decode_selrate : decodeBytes [0b01000101] = .ok (.selrate 5, []) := by decide
theorem test_decode_encode : decodeBytes [0b01010000] = .ok (.encode, []) := by decide
theorem test_decode_validate : decodeBytes [0b01100000] = .ok (.validate, []) := by decide

/-- R65: START, BIT0, BIT1 and STOP, `true` for carrier on. -/
theorem test_line_patterns :
    linePattern .lineStart = [true, true, true, true, true, true, true, true, false, false, false] ∧
    linePattern .lineBit0 = [true, false] ∧ linePattern .lineBit1 = [true, false, false, false] ∧
    linePattern .lineStop = [true, false] := by decide

/-- R65, R71: START, the bits 1 and then seven times 0, STOP is the frame of the byte 0x01. -/
theorem test_parse_frame :
    parseFrame [true, true, true, true, true, true, true, true, false, false, false, true, false, false, false, true, false,
      true, false, true, false, true, false, true, false, true, false, true, false, true, false] =
    some (frameSymbols [0x01]) := by decide

/-- R79: no opcode 0 or 7, no argument on DECODE. -/
theorem test_decode_illegal :
    decodeBytes [0b00000000] = .error (.illegalOpcode 0) ∧ decodeBytes [0b01110000] = .error (.illegalOpcode 7) ∧
    decodeBytes [0b00100001] = .error (.nonZeroArgument 2 1) := by decide

/-! ## States the tests start from -/

/-- The reset state with a limit of 2 idle samples and a minimum of 3 entries (vector V-CAP-1). -/
def base : State := { State.reset with cfgIdleLimit := 2, cfgMinPulses := 3 }

/-- A train in TRAIN. -/
def withTrain (l : List Pulse) (s : State) : State :=
  { s with train := Memory.ofListFrom 0 l, trainLen := l.length }

/-- Bytes in PAYLOAD. -/
def withPayload (p : List Byte) (s : State) : State :=
  { s with payload := Memory.ofListFrom 0 p, payLen := p.length }

/-- A capture in its run, the line active since 20 microseconds. -/
def running : State :=
  { base with busy := true, opActive := 1, capState := .run, capT0 := 20, now := 30, capPrev := 0 }

/-- A capture in its wait. -/
def waiting : State := { base with busy := true, opActive := 1, capState := .wait }

/-- An encoder at the mark of bit 0 of its one byte, the period 5 microseconds. -/
def encoding : State :=
  { withPayload [0x01] base with busy := true, opActive := 5, encPhase := .bitMark, encPeriod := 5 }

/-- The state after one step. -/
def after (s : State) : State := outcomeState s (step s)

/-- The entries of a train as level and duration. -/
def entries (s : State) : List (Bit × Word) :=
  (List.range s.trainLen).map fun i => ((readTrain s i).level, (readTrain s i).dur)

/-! ## One step of each instruction -/

/-- R91: CAPTURE empties the train and waits. -/
theorem test_capture_issue :
    let s := after (withTrain [⟨1, 5⟩] base |>.withFetchWord 8 0x10)
    s.trainLen = 0 ∧ s.busy = true ∧ s.capState = .wait ∧ s.opActive = 1 := by decide

/-- V-CAP-1: the sample (1, 50) ends the first interval of 30 microseconds at the idle level. -/
theorem test_capture_edge :
    let s := after { running with agenda := [.sample 1 20] }
    entries s = [(1, 30)] ∧ s.capNumIdle = 1 ∧ s.capT0 = 50 ∧ s.capState = .run := by decide

/-- V-DEC-3: the train of the one byte 0x01 at 2400, 19 entries. -/
theorem test_decode_2400 :
    let t : List Pulse := [⟨1, 3333⟩, ⟨0, 1250⟩, ⟨1, 417⟩, ⟨0, 1250⟩, ⟨1, 417⟩, ⟨0, 417⟩, ⟨1, 417⟩, ⟨0, 417⟩, ⟨1, 417⟩,
      ⟨0, 417⟩, ⟨1, 417⟩, ⟨0, 417⟩, ⟨1, 417⟩, ⟨0, 417⟩, ⟨1, 417⟩, ⟨0, 417⟩, ⟨1, 417⟩, ⟨0, 417⟩, ⟨1, 417⟩]
    let s := after (withTrain t base |>.withFetchWord 8 0x20)
    s.decResult = .ok ∧ s.baud = 2400 ∧ s.baudIdx = 4 ∧ payloadBytes s = [0x01] ∧ s.decWarnLen = false := by
  decide +kernel

/-- V-DEC-5: a space exactly at the effective threshold is a 1 in the exact mode and, with the truncated threshold, a 0. -/
theorem test_decode_boundary :
    let t : List Pulse := [⟨1, 100⟩, ⟨0, 40⟩, ⟨1, 13⟩, ⟨0, 24⟩, ⟨1, 13⟩, ⟨0, 23⟩, ⟨1, 13⟩, ⟨0, 23⟩, ⟨1, 13⟩, ⟨0, 23⟩, ⟨1, 13⟩,
      ⟨0, 23⟩, ⟨1, 13⟩, ⟨0, 23⟩, ⟨1, 13⟩, ⟨0, 23⟩, ⟨1, 13⟩, ⟨0, 23⟩, ⟨1, 13⟩]
    payloadBytes (decodeTrain .exact (withTrain t base)) = [0x01] ∧ (decodeTrain .exact (withTrain t base)).baud = 57600 ∧
    payloadBytes (decodeTrain .trunc (withTrain t base)) = [0x00] := by decide +kernel

/-- V-LUT-2: 205 lies halfway between 110 and 300; the first listed wins. -/
theorem test_snap_tie :
    let s := after ({ base with x := 205 }.withFetchWord 8 0x30)
    s.baud = 110 ∧ s.baudIdx = 0 ∧ s.busy = false := by decide +kernel

/-- V-LUT-2: 121601 lies above the last midpoint. -/
theorem test_snap_last :
    (after ({ base with x := 121601 }.withFetchWord 8 0x30)).baud = 128000 := by decide +kernel

/-- R134: index 4 is 2400. -/
theorem test_selrate :
    let s := after (base.withFetchWord 8 0x44)
    s.baud = 2400 ∧ s.baudIdx = 4 ∧ s.cmdErr = .accepted := by decide +kernel

/-- R135: index 13 is reserved. -/
theorem test_selrate_reserved :
    let s := after ({ base with baud := 7 }.withFetchWord 8 0x4D)
    s.baud = 7 ∧ s.cmdErr = .badArg ∧ s.opActive = 0 := by decide +kernel

/-- R144: a rate of 10000 with the offset 100 leaves no period. -/
theorem test_encode_underflow :
    let s := after ({ base with baud := 10000 }.withFetchWord 8 0x50)
    s.encResult = .periodUnderflow ∧ s.busy = false ∧ s.out = [] := by decide +kernel

/-- R143: 2400 with the offset 100 gives the period 950/3. -/
theorem test_encode_period :
    let s := after ({ base with baud := 2400 }.withFetchWord 8 0x50)
    s.encPeriod = 950 / 3 ∧ s.encPhase = .startMark := by decide +kernel

/-- R174: the canonical payload's bytes sum to 0x47. -/
theorem test_validate_match :
    let s := after (withPayload [0x23, 0xcb, 0x26, 0x01, 0x00, 0x20, 0x03, 0x05, 0x0a, 0, 0, 0, 0, 0x47] base |>.withFetchWord 8 0x60)
    s.chkCalc = 0x47 ∧ s.chkRecv = 0x47 ∧ s.chkResult = .matched := by decide +kernel

/-- R156: the sum of 0xFF and 0xFF is 0xFE. -/
theorem test_validate_wraps :
    (after (withPayload [0xff, 0xff, 0xfd] base |>.withFetchWord 8 0x60)).chkCalc = 0xfe ∧
    (after (withPayload [0xff, 0xff, 0xfd] base |>.withFetchWord 8 0x60)).chkResult = .mismatch := by decide +kernel

/-- R65: the symbols at a period of 5 microseconds. -/
theorem test_line_start :
    (outcomeState base (exec .lineStart { base with encPeriod := 5 })).out = [⟨.carrier, 40⟩, ⟨.gap, 15⟩] := by decide +kernel
theorem test_line_bit0 :
    (outcomeState base (exec .lineBit0 { base with encPeriod := 5 })).out = [⟨.carrier, 5⟩, ⟨.gap, 5⟩] := by decide +kernel
theorem test_line_bit1 :
    (outcomeState base (exec .lineBit1 { base with encPeriod := 5 })).out = [⟨.carrier, 5⟩, ⟨.gap, 15⟩] := by decide +kernel
theorem test_line_stop :
    (outcomeState base (exec .lineStop { base with encPeriod := 5 })).out = [⟨.carrier, 5⟩, ⟨.gap, 5⟩] := by decide +kernel

/-- R174: BUILD's worked example. -/
theorem test_build : buildPayload false .cool 26 .f1 .v1 =
    .ok [0x23, 0xcb, 0x26, 0x01, 0x00, 0x20, 0x03, 0x05, 0x0a, 0, 0, 0, 0, 0x47] := by decide

/-- R82: after VALIDATE the chain reads and reports BAUD, PAYLOAD, DEC_WARN_LEN and CHK_RESULT. -/
theorem test_runCapture_report :
    let s : State := { withPayload [0x5A, 0x5A] base with baud := 1200, chkResult := .matched }
    (runCapture false .decoded { s with decResult := .ok }).next = .validated ∧
    (runCapture false .validated s).report =
      some { baud := 1200, payload := [0x5A, 0x5A], warnLen := false, chkResult := .matched } ∧
    (runCapture false .validated s).moves = [.read .baud, .read .payLen, .read (.payByte 0), .read (.payByte 1),
      .read .decWarnLen, .read .chkResult] := by decide

/-- R33, R145: the mark of a data bit lasts one period. -/
theorem test_encode_mark : (after encoding).out = [⟨.carrier, 5⟩] ∧ (after encoding).encPhase = .bitGap := by decide +kernel

/-! ## Witnesses: the invariants hold somewhere -/

theorem base_inv : EngineInv base := by
  constructor <;> simp [base, State.reset, Memory.wf]

theorem base_captureInv : CaptureInv base := by constructor <;> simp [base, State.reset]

theorem running_inv : EngineInv running := by
  constructor <;> simp [running, base, State.reset, Memory.wf]

theorem running_captureInv : CaptureInv running := by
  constructor <;> simp [running, base, State.reset, TrainAlternates, entryLevel]

theorem encoding_inv : EngineInv encoding := by
  constructor <;> simp [encoding, withPayload, Memory.ofListFrom, base, State.reset, Memory.wf, Config.payMax]

/-- A state given a train holds it. -/
theorem holds_withTrain (l : List Pulse) (s : State) : HoldsTrain (withTrain l s) l := by
  refine ⟨rfl, fun i h => ?_⟩
  have e := Memory.read_ofListFrom l 0 i
  simp only [readTrain, withTrain, e]
  simp [h]

/-! ## Witnesses: concrete values that meet the hypotheses of each statement, at the ends of each clause's range -/

theorem witness_CommandWordsRoundTrip :
    encodeCmd (.selrate 15) = some 0x4F ∧ decodeBytes [0x4F, 0x00] = .ok (.selrate 15, [0x00]) := by decide

theorem witness_FramePatternReadsBack :
    symbolsPattern (frameSymbols [0x80]) = symbolsPattern (frameSymbols [0x80]) := rfl

theorem witness_FrameLengthInPeriods : Instr.lineBit1 ∈ frameSymbols [0x01] := by decide

theorem witness_StepRunsDecodedCommand :
    (let s : State := { base with agenda := [.command 0x4C] }
     s.agenda = .command 0x4C :: [] ∧ s.busy = false ∧ decodeBytes [0x4C] = .ok (.selrate 12, [])) ∧
    (base.busy = false ∧ decodeTableWord 8 0x4C = some (.selrate 12)) := by decide

theorem witness_AcceptanceAndCompletion :
    (let s : State := { running with agenda := [.command 0x30] }
     s.agenda = .command 0x30 :: [] ∧ s.busy = true) ∧
    (let s : State := { base with agenda := [.command 0x10] }
     s.agenda = .command 0x10 :: [] ∧ s.busy = false ∧ decodeBytes [0x10] = .ok (.capture, []) ∧
      Instr.wellFormed .capture = true) ∧
    (let s : State := { base with agenda := [.command 0x4C] }
     s.agenda = .command 0x4C :: [] ∧ s.busy = false ∧ decodeBytes [0x4C] = .ok (.selrate 12, []) ∧
      Instr.wellFormed (.selrate 12) = true) := by decide

theorem witness_IllegalAndReservedWords :
    (let s : State := { base with agenda := [.command 0x00] }
     s.agenda = .command 0x00 :: [] ∧ s.busy = false) ∧
    (0x0F#8).toNat / 16 = 0 ∧ 7 ≤ (0x70#8).toNat / 16 ∧ 7 ≤ (0xFF#8).toNat / 16 ∧
    ((0x11#8).toNat / 16 ∈ [1, 2, 3, 5, 6] ∧ (0x11#8).toNat % 16 ≠ 0) ∧
    ((0x6F#8).toNat / 16 ∈ [1, 2, 3, 5, 6] ∧ (0x6F#8).toNat % 16 ≠ 0) ∧
    ((0x4D#8).toNat / 16 = 4 ∧ 13 ≤ (0x4D#8).toNat % 16) ∧
    ((0x4F#8).toNat / 16 = 4 ∧ 13 ≤ (0x4F#8).toNat % 16) := by decide

theorem witness_CaptureIssue : base.busy = false := rfl

theorem witness_CaptureWaitSample :
    (let s : State := { waiting with agenda := [.sample 0 5] }
     s.agenda = .sample 0 5 :: [] ∧ s.capState = .wait ∧ (0 : Bit) = 1 - s.cfgIdleLevel) ∧
    (let s : State := { waiting with agenda := [.sample 1 5] }
     s.agenda = .sample 1 5 :: [] ∧ s.capState = .wait ∧ (1 : Bit) ≠ 1 - s.cfgIdleLevel) := by decide

/-- No edge with the counter reaching the limit; an edge into the last place of TRAIN; an edge into a full TRAIN. -/
theorem witness_CaptureRunSample :
    (let s : State := { running with capPrev := 1, capNumIdle := 1, agenda := [.sample 1 5] }
     s.agenda = .sample 1 5 :: [] ∧ s.capState = .run ∧ (1 : Bit) = s.cfgIdleLevel ∧
      (s.capNumIdle + 1).toNat ≤ s.cfgIdleLimit.toNat ∧ (1 : Bit) = s.capPrev) ∧
    (let s : State := { running with trainLen := 255, agenda := [.sample 1 5] }
     s.agenda = .sample 1 5 :: [] ∧ s.capState = .run ∧ (1 : Bit) = s.cfgIdleLevel ∧
      (s.capNumIdle + 1).toNat ≤ s.cfgIdleLimit.toNat ∧ (1 : Bit) ≠ s.capPrev ∧ s.trainLen < 256) ∧
    (let s : State := { running with trainLen := 256, capPrev := 1, agenda := [.sample 0 5] }
     s.agenda = .sample 0 5 :: [] ∧ s.capState = .run ∧ (0 : Bit) ≠ s.cfgIdleLevel ∧
      (0 : Word).toNat ≤ s.cfgIdleLimit.toNat ∧ (0 : Bit) ≠ s.capPrev ∧ ¬ s.trainLen < 256) := by decide

/-- The last sample of a capture that overflowed; of one exactly long enough; of one that is one entry short. -/
theorem witness_CaptureCompletion :
    (let s : State := { running with capPrev := 1, capNumIdle := 2, capOvf := true, agenda := [.sample 1 5] }
     s.agenda = .sample 1 5 :: [] ∧ s.capState = .run ∧ (1 : Bit) = s.cfgIdleLevel ∧
      s.cfgIdleLimit.toNat < (s.capNumIdle + 1).toNat ∧ s.capOvf = true) ∧
    (let s : State := { running with cfgIdleLimit := 0, trainLen := 256, agenda := [.sample 1 5] }
     s.agenda = .sample 1 5 :: [] ∧ s.capState = .run ∧ (1 : Bit) = s.cfgIdleLevel ∧
      s.cfgIdleLimit.toNat < (s.capNumIdle + 1).toNat ∧ (1 : Bit) ≠ s.capPrev ∧ 256 ≤ s.trainLen) ∧
    (let s : State := { running with cfgIdleLimit := 0, trainLen := 2, agenda := [.sample 1 5] }
     s.agenda = .sample 1 5 :: [] ∧ s.capState = .run ∧ (1 : Bit) = s.cfgIdleLevel ∧
      s.cfgIdleLimit.toNat < (s.capNumIdle + 1).toNat ∧ (1 : Bit) ≠ s.capPrev ∧ s.trainLen < 256 ∧ s.capOvf = false ∧
      s.cfgMinPulses.toNat = s.trainLen + 1) ∧
    (let s : State := { running with capPrev := 1, capNumIdle := 2, trainLen := 2, agenda := [.sample 1 5] }
     s.agenda = .sample 1 5 :: [] ∧ s.capState = .run ∧ (1 : Bit) = s.cfgIdleLevel ∧
      s.cfgIdleLimit.toNat < (s.capNumIdle + 1).toNat ∧ (1 : Bit) = s.capPrev ∧ s.capOvf = false ∧
      s.trainLen + 1 = s.cfgMinPulses.toNat) := by decide

theorem witness_CaptureOnIdleLineWaits :
    let s : State := { waiting with agenda := levelSamples 1 [10, 0, 10] }
    s.capState = .wait ∧ s.agenda = levelSamples s.cfgIdleLevel [10, 0, 10] ++ [] := by decide

theorem witness_CaptureOnStuckLineRuns :
    let s : State := { running with agenda := levelSamples 0 [10, 10] }
    s.capState = .run ∧ s.capPrev = 1 - s.cfgIdleLevel ∧ s.agenda = levelSamples (1 - s.cfgIdleLevel) [10, 10] ++ [] := by
  decide

/-- Once with every outcome: overflowed, exactly long enough, one entry short. -/
theorem witness_CaptureEndsAfterIdleRun :
    let s : State := { running with capPrev := 1, capNumIdle := 1, trainLen := 3, agenda := levelSamples 1 [10, 10] }
    s.capState = .run ∧ s.busy = true ∧ s.capPrev = s.cfgIdleLevel ∧ s.cfgIdleLimit ≠ BitVec.allOnes 32 ∧
    s.capNumIdle.toNat + [10, 10].length = s.cfgIdleLimit.toNat + 1 ∧ 0 < [10, 10].length ∧
    s.agenda = levelSamples s.cfgIdleLevel [10, 10] ++ [] ∧ s.capOvf = false ∧ s.cfgMinPulses.toNat = s.trainLen ∧
    { s with capOvf := true }.capOvf = true ∧ ¬ s.cfgMinPulses.toNat ≤ { s with trainLen := 2 }.trainLen := by decide

theorem witness_SingleActiveSampleIsTooShort :
    let s : State := { waiting with agenda := .sample 0 7 :: levelSamples 1 [3, 3, 3] }
    s.capState = .wait ∧ s.trainLen = 0 ∧ s.capOvf = false ∧ 1 < s.cfgMinPulses.toNat ∧
    s.cfgIdleLimit ≠ BitVec.allOnes 32 ∧ [3, 3, 3].length = s.cfgIdleLimit.toNat + 1 ∧
    s.agenda = .sample (1 - s.cfgIdleLevel) 7 :: levelSamples s.cfgIdleLevel [3, 3, 3] := by decide

/-- The levels and times of vector V-CAP-1. -/
theorem witness_CaptureRecordsIntervals :
    let s : State := { waiting with agenda := .sample 0 20 :: (edgeSamples 1 [30, 30, 15] ++ levelSamples 1 [5, 10]) }
    s.capState = .wait ∧ s.trainLen = 0 ∧ s.capOvf = false ∧ [30, 30, 15].length % 2 = 1 ∧ [30, 30, 15].length ≤ 255 ∧
    s.cfgMinPulses.toNat ≤ [30, 30, 15].length ∧ 0 < s.cfgIdleLimit.toNat ∧ s.cfgIdleLimit ≠ BitVec.allOnes 32 ∧
    [5, 10].length = s.cfgIdleLimit.toNat ∧
    s.agenda = .sample (1 - s.cfgIdleLevel) 20 ::
      (edgeSamples s.cfgIdleLevel [30, 30, 15] ++ levelSamples s.cfgIdleLevel [5, 10]) := by decide

theorem witness_CaptureProgressKept :
    EngineInv running ∧ CaptureInv running ∧ ∃ t, step running = .next t := ⟨running_inv, running_captureInv, ⟨_, rfl⟩⟩

/-- A run whose next sample, an edge to the idle level, ends it: limit 0, minimum 1. -/
def ending : State := { running with cfgIdleLimit := 0, cfgMinPulses := 1, agenda := [.sample 1 5] }

theorem ending_inv : EngineInv ending := by
  constructor <;> simp [ending, running, base, State.reset, Memory.wf]

theorem ending_captureInv : CaptureInv ending := by
  constructor <;> simp [ending, running, base, State.reset, TrainAlternates, entryLevel]

theorem witness_CompletedTrainAlternatesAndIsOdd :
    EngineInv ending ∧ CaptureInv ending ∧ ending.capState = .run ∧ step ending = .next (after ending) ∧
    (after ending).capResult = .ok := ⟨ending_inv, ending_captureInv, rfl, rfl, by decide⟩

theorem witness_DecodeNoGroup :
    let s : State := { base with trainLen := 17 }
    s.busy = false ∧ s.trainLen < 18 ∧ State.reset.trainLen < 18 := by decide

/-- 18 entries of one duration. -/
def flatTrain (d : Word) : List Pulse := List.replicate 18 ⟨1, d⟩

theorem witness_DecodeZeroThreshold :
    (withTrain (flatTrain 0) base).busy = false ∧ 18 ≤ (withTrain (flatTrain 0) base).trainLen ∧
    decodeS (withTrain (flatTrain 0) base) = 0 := by decide +kernel

theorem witness_DecodeResults :
    (withTrain (flatTrain 1) base).busy = false ∧ 18 ≤ (withTrain (flatTrain 1) base).trainLen ∧
    0 < decodeS (withTrain (flatTrain 1) base) := by decide +kernel

/-- The train of the byte 0 at 2400, and the same with the first space lengthened to 1250. -/
def zeroBits : State := withTrain (lineTrain 2400 [0x00]) base
def oneBit : State := { zeroBits with train := Memory.write zeroBits.train 3 ⟨0, 1250⟩, trainGen := 0 }

theorem witness_DecodeMonotonicBit :
    zeroBits.busy = false ∧ 0 < decodeN zeroBits / 16 ∧ 0 < 8 ∧ 0 < decodeS zeroBits ∧
    oneBit = { zeroBits with train := oneBit.train, trainGen := oneBit.trainGen } ∧
    (∀ i, i ≠ 2 + (16 * 0 + 2 * 0 + 1) → trainDur oneBit i = trainDur zeroBits i) ∧
    decodedBit zeroBits 0 0 = false ∧
    3 * decodeS zeroBits ≤ trainDur oneBit (2 + (16 * 0 + 2 * 0 + 1)) * (decodeN zeroBits - 3) := by
  refine ⟨rfl, by decide +kernel, by decide, by decide +kernel, rfl, fun i h => ?_, by decide +kernel, by decide +kernel⟩
  have e := Memory.read_write_other zeroBits.train (i := 3) (j := i) ⟨0, 1250⟩ h
  have g : zeroBits.trainGen = 0 := rfl
  simp only [trainDur, readTrain, oneBit, e, g]

theorem witness_DecodeScaleInvariant :
    let s := withTrain (flatTrain 2) base
    let t := withTrain (flatTrain 6) base
    s.busy = false ∧ 18 ≤ s.trainLen ∧ 0 < decodeS s ∧ 0 < 3 ∧ t = { s with train := t.train, trainGen := t.trainGen } ∧
    ∀ i, 2 ≤ i → i < 2 + decodeN s → trainDur t i = 3 * trainDur s i := by
  refine ⟨rfl, by decide +kernel, by decide +kernel, by decide, rfl, fun i _ h => ?_⟩
  have hi : i < 18 := h
  revert hi
  clear h
  revert i
  decide +kernel

theorem witness_DecodeIgnoresLevels :
    let s := { withTrain [⟨1, 5⟩] base with trainGen := 0 }
    let t := { withTrain [⟨0, 5⟩] base with trainGen := 0 }
    t = { s with train := t.train, trainGen := t.trainGen } ∧ ∀ i, trainDur t i = trainDur s i := by
  refine ⟨rfl, fun i => ?_⟩
  cases i <;> rfl

theorem witness_DecodeRecoversFramePayload :
    let p : List Byte := List.replicate 15 0xA5
    (withTrain (lineTrain 110 [0xA5]) base).busy = false ∧ (withTrain (lineTrain 110 [0xA5]) base).cfgStopRem = 1 ∧
    110 ∈ [110, 300, 600, 1200, 2400, 4800, 9600, 14400, 19200, 38400, 57600, 115200, 128000] ∧
    HoldsTrain (withTrain (lineTrain 110 [0xA5]) base) (lineTrain 110 [0xA5]) ∧
    128000 ∈ [110, 300, 600, 1200, 2400, 4800, 9600, 14400, 19200, 38400, 57600, 115200, 128000] ∧
    1 ≤ p.length ∧ p.length ≤ 15 ∧ HoldsTrain (withTrain (lineTrain 128000 p) base) (lineTrain 128000 p) :=
  ⟨rfl, rfl, by simp, holds_withTrain _ _, by simp, by decide, by decide, holds_withTrain _ _⟩

theorem witness_DecodeRecoversFrameRate :
    let p : List Byte := List.replicate 7 0xA5
    (withTrain (lineTrain 128000 p) base).busy = false ∧
    128000 ∈ [110, 300, 600, 1200, 2400, 4800, 9600, 14400, 19200, 38400, 57600, 115200, 128000] ∧
    7 ≤ p.length ∧ p.length ≤ 15 ∧ HoldsTrain (withTrain (lineTrain 128000 p) base) (lineTrain 128000 p) :=
  ⟨rfl, by simp, by decide, by decide, holds_withTrain _ _⟩

theorem witness_SnapTakesFirstNearest : { base with x := 205 }.busy = false := rfl

theorem witness_SnapBands :
    { base with x := 4294967295 }.busy = false ∧ ({ base with x := 205 } : State).x.toNat ≤ 205 ∧
    ¬ ({ base with x := 206 } : State).x.toNat ≤ 205 ∧ ({ base with x := 121600 } : State).x.toNat ≤ 121600 ∧
    ¬ ({ base with x := 121601 } : State).x.toNat ≤ 121600 := by decide

theorem witness_SelrateLoadsTableEntry :
    base.busy = false ∧ (0 : Nibble).toNat ≤ 12 ∧ (12 : Nibble).toNat ≤ 12 ∧ 13 ≤ (13 : Nibble).toNat ∧
    13 ≤ (15 : Nibble).toNat := by decide

theorem nominal_of {s : State} {B C : Nat} (hb : s.baud.toNat = B) (hc : s.cfgCompUs.toNat = C) :
    nominalLessComp s = 1000000 / (B : Rat) - (C : Rat) := by rw [nominalLessComp, hb, hc]

theorem witness_EncodeRefusesUnusableRate :
    base.busy = false ∧ base.baud = 0 ∧ { base with baud := 10000 }.baud ≠ 0 ∧ nominalLessComp { base with baud := 10000 } ≤ 0 := by
  refine ⟨rfl, rfl, by decide, ?_⟩
  rw [nominal_of (B := 10000) (C := 100) rfl rfl]
  norm_num

theorem witness_EncodeLatchesPeriod :
    { base with baud := 9999 }.busy = false ∧ { base with baud := 9999 }.baud ≠ 0 ∧ 0 < nominalLessComp { base with baud := 9999 } := by
  refine ⟨rfl, by decide, ?_⟩
  rw [nominal_of (B := 9999) (C := 100) rfl rfl]
  norm_num

theorem witness_EncodeEmitsTheFrame :
    let s := { withPayload [0x01] base with baud := 2400 }
    s.busy = false ∧ s.baud ≠ 0 ∧ 0 < nominalLessComp s ∧ s.agenda = [] := by
  refine ⟨rfl, by decide, ?_, rfl⟩
  rw [nominal_of (B := 2400) (C := 100) rfl rfl]
  norm_num

theorem witness_FrameEventsCountAndTotal : 19 < (frameEvents 5 [0x01]).length := by decide +kernel

theorem witness_RatesThatEmit :
    base.busy = false ∧ base.cfgCompUs = 100 ∧ 10000 ≤ ({ base with baud := 10000 } : State).baud.toNat ∧
    ({ base with cfgCompUs := 0 } : State).cfgCompUs = 0 := by decide

theorem witness_EncodeAlwaysCompletes : EngineInv encoding ∧ encoding.encPhase ≠ .idle ∧ encoding.agenda = [] :=
  ⟨encoding_inv, by decide, rfl⟩

theorem witness_RunTransmitSendsPayload :
    let p : List Byte := List.replicate 15 0x23
    let s : State := { base with agenda := runTransmit p (.number 9999) }
    s.busy = false ∧ p.length ≤ 15 ∧ (9999 : Word) ≠ 0 ∧
    0 < 1000000 / ((9999 : Word).toNat : Rat) - (s.cfgCompUs.toNat : Rat) ∧ s.agenda = runTransmit p (.number 9999) := by
  refine ⟨rfl, by decide, by decide, ?_, rfl⟩
  have hb : ((9999 : Word).toNat : Rat) = 9999 := rfl
  have hc : (base.cfgCompUs.toNat : Rat) = 100 := rfl
  change 0 < 1000000 / ((9999 : Word).toNat : Rat) - (base.cfgCompUs.toNat : Rat)
  rw [hb, hc]
  norm_num

theorem witness_ValidateComparesSum :
    (withPayload [0x00] base).busy = false ∧ 0 < (withPayload [0x00] base).payLen := by decide

theorem witness_ValidateEmptyPayload : base.busy = false ∧ base.payLen = 0 := by decide

theorem witness_BuiltPayloadsValidate :
    let p : List Byte := [0x23, 0xcb, 0x26, 0x01, 0x00, 0x20, 0x03, 0x05, 0x0a, 0, 0, 0, 0, 0x47]
    buildPayload false .cool 26 .f1 .v1 = .ok p ∧ (withPayload p base).busy = false ∧ payloadBytes (withPayload p base) = p := by
  decide

theorem witness_BuildLayout :
    (16 : Int) ≤ 16 ∧ (16 : Int) ≤ 31 ∧ (16 : Int) ≤ 31 ∧ (31 : Int) ≤ 31 ∧
    ((ModeSym.feel, (0x08 : Byte)) ∈ [(ModeSym.heat, (0x01 : Byte)), (.dry, 0x02), (.cool, 0x03), (.feel, 0x08)]) ∧
    ((FanSym.f3, (0x5 : Byte)) ∈ [(FanSym.auto, (0x0 : Byte)), (.f1, 0x2), (.f2, 0x3), (.f3, 0x5)]) ∧
    ((VaneSym.cruise, (0x38 : Byte)) ∈ [(VaneSym.auto, (0x0 : Byte)), (.v1, 0x8), (.v2, 0x10), (.v3, 0x18), (.v4, 0x20),
      (.v5, 0x28), (.cruise, 0x38)]) := by decide

theorem witness_BuildReportsFirstBadField :
    (ModeSym.unknown "fan" = .unknown "fan") ∧ (∀ n, ModeSym.heat ≠ .unknown n) ∧ ((15 : Int) < 16) ∧ ((31 : Int) < 32) ∧
    ((16 : Int) ≤ 16 ∧ (31 : Int) ≤ 31) ∧ (FanSym.unknown "4" = .unknown "4") ∧ (∀ n, FanSym.f3 ≠ .unknown n) ∧
    (VaneSym.unknown "6" = .unknown "6") := by simp

theorem witness_BusyHostWriteRefused :
    let s : State := { running with agenda := [.write (.payLen 3)] }
    s.agenda = .write (.payLen 3) :: [] ∧ s.busy = true := by decide

/-- One host write at the last place of each bound and one just beyond it. -/
theorem witness_HostWritesLand :
    (∀ r ∈ ([.cfgIdleLimit 4294967294, .cfgIdleLimit 4294967295, .trainLen 256, .trainLen 257, .payLen 15, .payLen 16,
        .trainEntry 255 ⟨1, 5⟩, .trainEntry 256 ⟨1, 5⟩, .payByte 14 7, .payByte 15 7] : List HostWrite),
      { base with agenda := [Event.write r] }.agenda = .write r :: [] ∧ { base with agenda := [Event.write r] }.busy = false) := by
  decide

theorem witness_HostReadsShowRegisters :
    (let s : State := { base with agenda := [.read (.payByte 14)] }
     s.agenda = .read (.payByte 14) :: [] ∧ (∃ t, step s = .next t) ∧ s.busy = false ∧ 14 < 15 ∧ s.payLen ≤ 15) ∧
    (let s : State := { base with agenda := [.read (.trainEntry 255)] }
     s.agenda = .read (.trainEntry 255) :: [] ∧ (∃ t, step s = .next t) ∧ s.busy = false ∧ 255 < 256 ∧ s.trainLen ≤ 256) ∧
    (let s : State := { running with agenda := [.read .capResult] }
     s.agenda = .read .capResult :: [] ∧ ∃ t, step s = .next t) ∧
    (let s : State := { base with agenda := [.read (.trainEntry 256)] }
     s.agenda = .read (.trainEntry 256) :: [] ∧ step s = .fault (.noSuchElement 256)) :=
  ⟨⟨rfl, ⟨_, rfl⟩, rfl, by decide, by decide⟩, ⟨rfl, ⟨_, rfl⟩, rfl, by decide, by decide⟩, ⟨rfl, ⟨_, rfl⟩⟩, ⟨rfl, rfl⟩⟩

theorem witness_ResetValues : { running with agenda := [Event.reset] }.agenda = .reset :: [] := rfl

theorem witness_ResetKeepsEmittedEvents :
    { encoding with out := [⟨.carrier, 40⟩], agenda := [Event.reset] }.agenda = .reset :: [] := rfl

theorem witness_IdleEngineStays :
    EngineInv base ∧ base.busy = false ∧ base.agenda = [] ∧
    EngineInv { base with agenda := [Event.sample 0 5] } ∧ { base with agenda := [Event.sample 0 5] }.agenda = .sample 0 5 :: [] := by
  refine ⟨base_inv, rfl, rfl, ?_, rfl⟩
  constructor <;> simp [base, State.reset, Memory.wf]

theorem witness_ConfigurationIsTheHosts :
    let s : State := { base with agenda := [.command 0x44] }
    step s = .next (after s) ∧ (∀ r, nextMove s ≠ .write r) ∧ nextMove s ≠ .reset := by
  refine ⟨rfl, fun r h => ?_, by decide⟩
  cases h

theorem witness_OutIsAppendOnly : step encoding = .next (after encoding) ∧ nextMove encoding ≠ .reset :=
  ⟨rfl, fun h => by cases h⟩

/-- Each result field does change at its own move. -/
theorem witness_ResultFieldsAreOwned :
    (step ending = .next (after ending) ∧ nextMove ending ≠ .reset ∧ (after ending).capResult ≠ ending.capResult) ∧
    (let s : State := { base with agenda := [.command 0x20] }
     step s = .next (after s) ∧ nextMove s ≠ .reset ∧ (after s).decResult ≠ s.decResult) ∧
    (let s : State := { base with agenda := [.command 0x50] }
     step s = .next (after s) ∧ nextMove s ≠ .reset ∧ (after s).encResult ≠ s.encResult) ∧
    (let s : State := { base with agenda := [.command 0x60] }
     step s = .next (after s) ∧ nextMove s ≠ .reset ∧ (after s).chkResult ≠ s.chkResult) ∧
    (let s : State := { base with agenda := [.command 0x00] }
     step s = .next (after s) ∧ nextMove s ≠ .reset ∧ (after s).cmdErr ≠ s.cmdErr) :=
  ⟨⟨rfl, by decide, by decide⟩, ⟨rfl, by decide, by decide⟩, ⟨rfl, by decide, by decide⟩, ⟨rfl, by decide, by decide⟩,
    ⟨rfl, by decide, by decide⟩⟩

theorem witness_BuffersAreOwned :
    let s : State := { waiting with agenda := [.sample 1 5] }
    step s = .next (after s) ∧ nextMove s ≠ .reset ∧ (∀ r, nextMove s ≠ .write r) ∧ nextMove s ≠ .command 0x10 ∧
    s.capState ≠ .run ∧ nextMove s ≠ .command 0x20 := by
  refine ⟨rfl, by decide, fun r h => ?_, by decide, by decide, by decide⟩
  cases h

theorem witness_BusyOperandsHold :
    let s : State := { running with agenda := [.write (.payLen 5)] }
    step s = .next (after s) ∧ s.busy = true ∧ nextMove s ≠ .reset := ⟨rfl, rfl, by decide⟩

theorem witness_OneStepOperationsAreIdempotent :
    base.busy = false ∧ (Instr.decode = .decode ∨ Instr.decode = .snap ∨ (∃ idx, Instr.decode = .selrate idx) ∨
      Instr.decode = .validate) := ⟨rfl, .inl rfl⟩

theorem witness_BufferReadAfterWrite : Memory.wf [(3, (⟨1, 5⟩ : Pulse)), (7, ⟨0, 6⟩)] = true ∧ (4 : Nat) ≠ 3 := by decide

/-- Both outcomes of a step. -/
theorem witness_OnlyBadReadsStop :
    (∃ t, step base = .next t) ∧
    step { base with agenda := [.read (.payByte 15)] } = .fault (.noSuchElement 15) := ⟨⟨_, rfl⟩, rfl⟩

theorem witness_EveryStepKeepsInv : EngineInv encoding ∧ step encoding = .next (after encoding) := ⟨encoding_inv, rfl⟩

end Sys2Proof.Tests
end

section
/-! PROOFS. What one step can do, said once: a move of an agent and the state it leaves, one constructor for each kind of move. -/

namespace Sys2Proof.Machine

/-! ## Words of CMD -/

/-- A word is its opcode and its argument, put together (R76). -/
theorem commandOf_fields (w : Byte) : commandOf (opcodeField w) (argumentField w) = w :=
  (BitVec.extractLsb'_append_extractLsb'_eq_extractLsb' rfl).trans BitVec.extractLsb'_eq_self

/-- A row without an argument reads only a word whose argument is 0. -/
theorem noArgument_eq_ok {i j : Instr} {w : Byte} (h : noArgument j w = .ok i) : argumentField w = 0 ∧ i = j := by
  unfold noArgument at h
  split at h
  case isTrue ha => exact ⟨ha, (Except.ok.inj h).symm⟩
  case isFalse => cases h

/-- A word that decodes is the word of the command it decodes to (R77, R78). -/
theorem encodeCmd_of_decodeCmd {w : Byte} {i : Instr} (h : decodeCmd w = .ok i) : encodeCmd i = some w := by
  have row : ∀ (op : Nibble) (j : Instr), opcodeField w = op → encodeCmd j = some (commandOf op 0) →
      noArgument j w = .ok i → encodeCmd i = some w := by
    intro op j ho hj hn
    obtain ⟨ha, rfl⟩ := noArgument_eq_ok hn
    rw [hj, ← ho, ← ha, commandOf_fields]
  unfold decodeCmd at h
  split at h
  case isTrue ho => exact row 0x1 .capture ho rfl h
  split at h
  case isTrue ho => exact row 0x2 .decode ho rfl h
  split at h
  case isTrue ho => exact row 0x3 .snap ho rfl h
  split at h
  case isTrue ho =>
    rw [← Except.ok.inj h, encodeCmd, ← ho, commandOf_fields]
  split at h
  case isTrue ho => exact row 0x5 .encode ho rfl h
  split at h
  case isTrue ho => exact row 0x6 .validate ho rfl h
  case isFalse => cases h

/-- One byte decodes as its command and leaves nothing over. -/
theorem decodeBytes_one_eq_ok {w : Byte} {i : Instr} {r : List Byte} (h : decodeBytes [w] = .ok (i, r)) :
    decodeCmd w = .ok i ∧ r = [] := by
  rw [decodeBytes_one] at h
  cases hd : decodeCmd w with
  | error e => rw [hd] at h; cases h
  | ok j => rw [hd] at h; cases h; exact ⟨rfl, rfl⟩

/-- A legal word written while BUSY = 0 runs its command (R83). -/
theorem commandWrite_runs {w : Byte} {i : Instr} {r : List Byte} {s : State} (hb : s.busy = false)
    (h : decodeBytes [w] = .ok (i, r)) : commandWrite w s = exec i s := by
  simp [commandWrite, hb, h]

/-! ## The moves -/

/-- `Transition s e t`: made in `s`, the move `e` leaves `t`. One constructor for each thing a move can do; that these are all
of them is `takeEvent_transition`. -/
inductive Transition (s : State) : Event → State → Prop where
  /-- A command lost, illegal or with a reserved argument: only CMD_ERR (R79, R83). -/
  | refused (w : Byte) (e : CmdErr) : Transition s (.command w) { s with cmdErr := e }
  | capture : s.busy = false → Transition s (.command 0x10) (captureStart (accept 0x10 s))
  | decode : s.busy = false → Transition s (.command 0x20) (complete (decodeTrain Config.arith (accept 0x20 s)))
  /-- SNAP and SELRATE: an entry of the rate table is selected (R131, R134). -/
  | rate (w : Byte) (n : Nat) : s.busy = false → n ≤ 12 →
      Transition s (.command w) (complete (selectRate n (accept w s)))
  | encode : s.busy = false → Transition s (.command 0x50) (encodeStart (accept 0x50 s))
  | validate : s.busy = false → Transition s (.command 0x60) (complete (validatePayload (accept 0x60 s)))
  /-- A host write while BUSY = 1 (R39). -/
  | writeLost (r : HostWrite) : s.busy = true → Transition s (.write r) s
  | write (r : HostWrite) : s.busy = false → Transition s (.write r) (writeRegister r s)
  | read (r : HostRead) (d : PulseWord) (k : Nat) : Transition s (.read r) { s with hostData := d, draws := k }
  | sample (v : Bit) (dt : Nat) : Transition s (.sample v dt) (lineSample v dt s)
  /-- ENC's next event (R148). -/
  | event : s.encPhase ≠ .idle → Transition s .engine (encodeStep s)
  /-- A sample nobody fixed, for a capture at work (R101). -/
  | draw : s.encPhase = .idle → s.capState ≠ .idle → Transition s .engine (drawSample s)
  /-- The engine starts nothing by itself (R177). -/
  | rest : Transition s .engine s
  | reset : Transition s .reset (resetEngine s)

/-- A command executed while BUSY = 0 is one of the moves. -/
theorem exec_transition {s t : State} {i : Instr} {w : Byte} (hb : s.busy = false) (hw : encodeCmd i = some w)
    (h : exec i s = .next t) : Transition s (.command w) t := by
  have hword : commandWord i = w := by simp [commandWord, hw]
  have accepted : ∀ body, argumentLegal i = true → issue i body s = .next t → t = body (accept w s) := by
    intro body ha hi
    rw [issue_accept hb ha, hword] at hi
    exact (Host.Outcome.next.inj hi).symm
  cases i
  case capture => cases hw; rw [accepted captureStart rfl h]; exact .capture hb
  case decode => cases hw; rw [accepted (fun u => complete (decodeTrain Config.arith u)) rfl h]; exact .decode hb
  case snap =>
    rw [accepted (fun u => complete (snapRate u)) rfl h]
    exact .rate w (nearestIdx s.x.toNat) hb (nearestIdx_le _)
  case encode => cases hw; rw [accepted encodeStart rfl h]; exact .encode hb
  case validate => cases hw; rw [accepted (fun u => complete (validatePayload u)) rfl h]; exact .validate hb
  case selrate idx =>
    cases ha : argumentLegal (.selrate idx) with
    | true =>
      have hidx : idx.toNat < 13 := of_decide_eq_true ha
      rw [accepted (fun u => complete (selectRate idx.toNat u)) ha h]
      exact .rate w idx.toNat hb (by omega)
    | false =>
      have hr : issue (.selrate idx) (fun u => complete (selectRate idx.toNat u)) s = .next t := h
      rw [issue_badArgument hb ha] at hr
      rw [← Host.Outcome.next.inj hr]
      exact .refused w _
  all_goals cases hw

/-- A word written to CMD is one of the moves. -/
theorem commandWrite_transition {s t : State} {w : Byte} (h : commandWrite w s = .next t) :
    Transition s (.command w) t := by
  unfold commandWrite at h
  split at h
  case isTrue => rw [← Host.Outcome.next.inj h]; exact .refused w _
  case isFalse hb =>
    split at h
    next i _ hd =>
      exact exec_transition (Bool.eq_false_of_not_eq_true hb) (encodeCmd_of_decodeCmd (decodeBytes_one_eq_ok hd).1) h
    next => rw [← Host.Outcome.next.inj h]; exact .refused w _

/-- The engine's own step is one of the moves. -/
theorem engineStep_transition (s : State) : Transition s .engine (engineStep s) := by
  rcases engineStep_cases s with ⟨he, h⟩ | ⟨he, hc, h⟩ | ⟨-, -, h⟩ <;> rw [h]
  · exact .event he
  · exact .draw he hc
  · exact .rest

/-- Every move that answers a next state is one of those listed. -/
theorem takeEvent_transition {s t : State} {e : Event} (h : takeEvent e s = .next t) : Transition s e t := by
  cases e with
  | command w => exact commandWrite_transition h
  | write r =>
    rw [← Host.Outcome.next.inj h]
    cases hb : s.busy
    · simpa [hostWrite, hb] using Transition.write r hb
    · simpa [hostWrite, hb] using Transition.writeLost r hb
  | read r =>
    rcases hostRead_cases r s with ⟨d, k, hr⟩ | ⟨i, hr⟩
    · rw [← Host.Outcome.next.inj (hr.symm.trans h)]
      exact .read r d k
    · cases hr.symm.trans h
  | sample v dt => rw [← Host.Outcome.next.inj h]; exact .sample v dt
  | engine => rw [← Host.Outcome.next.inj h]; exact engineStep_transition s
  | reset => rw [← Host.Outcome.next.inj h]; exact .reset

/-- A step is a transition made in the state without its move. -/
theorem step_transition {s t : State} (h : step s = .next t) : Transition (afterMove s) (nextMove s) t :=
  takeEvent_transition h

end Sys2Proof.Machine
end

section
/-! PROOFS. What each operation of a unit leaves as it is: one equation per operation, naming the fields it may write. -/

namespace Sys2Proof.Machine

/-- The end of a capture: it is idle, the engine is free, and the train is kept with OK or emptied with a failure (R98). -/
theorem captureFinish_cases (s : State) :
    (s.capOvf = false ∧ captureFinish s = { s with capResult := .ok, capState := .idle, busy := false }) ∨
    (∃ r, r ≠ .ok ∧ captureFinish s = { emptyTrain s with capResult := r, capState := .idle, busy := false }) := by
  rcases Bool.eq_false_or_eq_true s.capOvf with ho | ho
  · exact .inr ⟨.overflow, by decide, captureFinish_overflow ho⟩
  · by_cases hl : s.cfgMinPulses.toNat ≤ s.trainLen
    · exact .inl ⟨ho, captureFinish_ok ho hl⟩
    · exact .inr ⟨.tooShort, by decide, captureFinish_tooShort ho (not_le.1 hl)⟩

/-- One sample of the run writes the capture's registers, the train and BUSY, and nothing else. -/
theorem captureRun_frame (v : Bit) (t : Nat) (s : State) :
    ∃ m l g d r b c t0 n p o, captureRun v t s =
      { s with train := m, trainLen := l, trainGen := g, draws := d, capResult := r, busy := b, capState := c, capT0 := t0,
               capNumIdle := n, capPrev := p, capOvf := o } := by
  obtain ⟨m, l, t0, o, e⟩ := captureEdge_frame v t s
  rcases le_or_gt (idleCount v s).toNat s.cfgIdleLimit.toNat with h | h
  · rw [captureRun_goesOn h, e]
    exact ⟨_, _, _, _, _, _, _, _, _, _, _, rfl⟩
  · rw [captureRun_ends h, e]
    rcases captureFinish_cases { s with train := m, trainLen := l, capT0 := t0, capOvf := o, capNumIdle := idleCount v s }
      with ⟨-, f⟩ | ⟨r, -, f⟩
    all_goals exact ⟨_, _, _, _, _, _, _, _, _, _, _, f⟩

/-- Outside the run a sample writes the clock and the registers a run starts with, and nothing else. -/
theorem lineSample_frame_outside_run (v : Bit) (dt : Nat) {s : State} (h : s.capState ≠ .run) :
    ∃ u c t0 n p, lineSample v dt s =
      { s with now := u, capState := c, capT0 := t0, capNumIdle := n, capPrev := p } := by
  cases hc : s.capState with
  | idle => exact ⟨_, _, _, _, _, lineSample_idle v dt hc⟩
  | wait =>
    rw [lineSample_wait v dt hc]
    split
    all_goals exact ⟨_, _, _, _, _, rfl⟩
  | run => exact absurd hc h

/-- One sample writes the clock, the capture's registers, the train and BUSY, and nothing else. -/
theorem lineSample_frame (v : Bit) (dt : Nat) (s : State) :
    ∃ u m l g d r b c t0 n p o, lineSample v dt s =
      { s with now := u, train := m, trainLen := l, trainGen := g, draws := d, capResult := r, busy := b, capState := c,
               capT0 := t0, capNumIdle := n, capPrev := p, capOvf := o } := by
  by_cases h : s.capState = .run
  · rw [lineSample_run v dt h]
    obtain ⟨m, l, g, d, r, b, c, t0, n, p, o, e⟩ := captureRun_frame v (s.now + dt) { s with now := s.now + dt }
    exact ⟨_, _, _, _, _, _, _, _, _, _, _, _, e⟩
  · obtain ⟨u, c, t0, n, p, e⟩ := lineSample_frame_outside_run v dt h
    exact ⟨_, _, _, _, _, _, _, _, _, _, _, _, e⟩

/-- Everything ENCODE's issue can do: a rate of 0 or no period left ends it at once; else the encoder starts with a positive
period (R144, R148). -/
theorem encodeStart_cases (s : State) :
    (∃ r, encodeStart s = complete { s with encResult := r }) ∨
    (s.baud ≠ 0 ∧ 0 < periodNumerator s ∧ encodeStart s =
      { s with encResult := .none, encPeriod := compensatedPeriod s, encByte := 0, encBit := 0, encPhase := .startMark }) := by
  by_cases hb : s.baud = 0
  · exact .inl ⟨.zeroRate, if_pos hb⟩
  · by_cases hp : periodNumerator s ≤ 0
    · exact .inl ⟨.periodUnderflow, (if_neg hb).trans (if_pos hp)⟩
    · exact .inr ⟨hb, not_le.1 hp, (if_neg hb).trans (if_neg hp)⟩

/-- ENCODE's issue writes the encoder's registers, its result and BUSY, and nothing else. -/
theorem encodeStart_frame (s : State) :
    ∃ r b q j k p, encodeStart s =
      { s with encResult := r, busy := b, encPeriod := q, encByte := j, encBit := k, encPhase := p } := by
  rcases encodeStart_cases s with ⟨r, e⟩ | ⟨-, -, e⟩
  all_goals exact ⟨_, _, _, _, _, _, e⟩

/-- VALIDATE writes the three checksum registers and nothing else (R156 to R158). -/
theorem validatePayload_frame (s : State) :
    ∃ r c v, validatePayload s = { s with chkResult := r, chkCalc := c, chkRecv := v } := by
  unfold validatePayload compareChecksum
  split
  · exact ⟨_, _, _, raise_checksumEmpty s⟩
  · dsimp only
    split
    all_goals exact ⟨_, _, _, rfl⟩

/-- A host write writes configuration, the buffers and their lengths, BAUD and X, and nothing else (R36). -/
theorem writeRegister_frame (r : HostWrite) (s : State) :
    ∃ a b c d f m l p n w x, writeRegister r s =
      { s with cfgIdleLevel := a, cfgIdleLimit := b, cfgMinPulses := c, cfgCompUs := d, cfgStopRem := f, train := m,
               trainLen := l, payload := p, payLen := n, baud := w, x := x } := by
  cases r
  case cfgIdleLimit | trainEntry | trainLen | payByte | payLen =>
    dsimp only [writeRegister]
    split
    all_goals exact ⟨_, _, _, _, _, _, _, _, _, _, _, rfl⟩
  all_goals exact ⟨_, _, _, _, _, _, _, _, _, _, _, rfl⟩

/-- ENC_RESULT changes only with the encoder's last event (R148). -/
theorem encodeStep_encResult {s : State} (h : s.encPhase ≠ .stopGap) : (encodeStep s).encResult = s.encResult := by
  cases hp : s.encPhase with
  | idle => simp only [encodeStep, hp]
  | startMark => rw [encodeStep_startMark hp]; rfl
  | startGap => rw [encodeStep_startGap hp]; rfl
  | bitMark => rw [encodeStep_bitMark hp]; rfl
  | bitGap =>
    obtain ⟨p, j, k, e⟩ := nextBit_cases (emitSpace (currentSymbol s) s)
    rw [encodeStep_bitGap hp, e]
    rfl
  | stopMark => rw [encodeStep_stopMark hp]; rfl
  | stopGap => exact absurd hp h

end Sys2Proof.Machine
end

section
/-! PROOFS. The engine's invariant is kept by every move, one lemma per operation, and holds at reset (10_state.md rule R13). -/

namespace Sys2Proof.Machine

/-! ## What the invariant says of an engine that is free or at work -/

/-- With BUSY = 0 no unit is at work. -/
theorem EngineInv.units_idle {s : State} (hi : EngineInv s) (hb : s.busy = false) :
    s.capState = .idle ∧ s.encPhase = .idle := by
  have h := mt hi.busyIff.2 (by simp [hb])
  tauto

/-- While CAPTURE is at work, ENC is idle and the engine is busy. -/
theorem EngineInv.capture_at_work {s : State} (hi : EngineInv s) (hc : s.capState ≠ .idle) :
    s.encPhase = .idle ∧ s.busy = true :=
  ⟨hi.oneUnit.resolve_left hc, hi.busyIff.2 (.inl hc)⟩

/-- While ENCODE is at work, CAP is idle and the engine is busy. -/
theorem EngineInv.encode_at_work {s : State} (hi : EngineInv s) (he : s.encPhase ≠ .idle) :
    s.capState = .idle ∧ s.busy = true :=
  ⟨hi.oneUnit.resolve_right he, hi.busyIff.2 (.inr he)⟩

/-- The invariant does not speak of the agenda. -/
theorem EngineInv.without_move {s : State} (hi : EngineInv s) : EngineInv (afterMove s) := { hi with }

/-! ## Reset -/

/-- The reset value of CFG_IDLE_LIMIT is the parameter's. -/
theorem idleLimit_toNat : (BitVec.ofNat 32 Config.idleLimit.val).toNat = Config.idleLimit.val := by
  have h := Config.idleLimit.isLt
  rw [BitVec.toNat_ofNat, Nat.mod_eq_of_lt (by omega)]

theorem engineInv_reset : EngineInv State.reset where
  trainWf := rfl
  trainBound := by simp [State.reset]
  payloadWf := rfl
  payloadBound := by simp [State.reset]
  trainLen := Nat.zero_le _
  payLen := Nat.zero_le _
  baudIdx := Nat.zero_le _
  idleLimit := by
    intro h
    have hn := congrArg BitVec.toNat h
    have hlt := Config.idleLimit.isLt
    rw [State.reset, idleLimit_toNat, BitVec.toNat_allOnes] at hn
    omega
  busyIff := by simp [State.reset]
  oneUnit := .inl rfl
  capturing := fun h => absurd rfl h
  encoding := fun h => absurd rfl h
  numIdle := nofun
  startTime := nofun
  encFirst := fun _ => ⟨rfl, rfl⟩
  encByte := nofun
  outDur := nofun

theorem captureInv_reset : CaptureInv State.reset := ⟨nofun, nofun⟩

/-- A reset at any moment brings the invariant about. -/
theorem engineInv_resetEngine (s : State) : EngineInv (resetEngine s) :=
  { engineInv_reset with startTime := nofun }

/-! ## CAPTURE -/

/-- CAPTURE's issue (R91). -/
theorem EngineInv.after_captureStart {s : State} (hi : EngineInv s) (hb : s.busy = false) :
    EngineInv (captureStart (accept 0x10 s)) :=
  have he := (hi.units_idle hb).2
  { hi with
    trainWf := rfl
    trainBound := nofun
    trainLen := Nat.zero_le _
    busyIff := ⟨fun _ => .inl nofun, fun _ => rfl⟩
    oneUnit := .inr he
    capturing := fun _ => ⟨rfl, rfl⟩
    encoding := fun h => absurd he h
    numIdle := nofun
    startTime := nofun }

/-- An edge at the current time: an entry is added inside the train's space, or none (R94, R99). -/
theorem EngineInv.after_captureEdge {s : State} (hi : EngineInv s) (v : Bit) : EngineInv (captureEdge v s.now s) := by
  rcases captureEdge_cases v s.now s with ⟨-, e⟩ | ⟨-, hl, e⟩ | ⟨-, -, e⟩ <;> rw [e]
  · exact hi
  · exact { hi with
      trainWf := Memory.wf_write _ _ hi.trainWf
      trainBound := fun i p h =>
        Memory.bound_write _ hl (fun e he => hi.trainBound e.1 e.2 he) (i, p) h
      trainLen := hl
      startTime := fun _ => le_refl s.now }
  · exact { hi with startTime := fun _ => le_refl s.now }

/-- The end of a capture; the idle counter may be above its limit here (R98). -/
theorem EngineInv.after_captureFinish {s : State} (hi : EngineInv s) (hc : s.capState ≠ .idle) (n : Word) :
    EngineInv (captureFinish { s with capNumIdle := n }) := by
  have he := (hi.capture_at_work hc).1
  rcases captureFinish_cases { s with capNumIdle := n } with ⟨-, e⟩ | ⟨r, -, e⟩ <;> rw [e]
  · exact { hi with
      busyIff := by simp [he]
      oneUnit := .inl rfl
      capturing := fun h => absurd rfl h
      numIdle := nofun
      startTime := nofun }
  · exact { hi with
      trainWf := rfl
      trainBound := nofun
      trainLen := Nat.zero_le _
      busyIff := by simp [he]
      oneUnit := .inl rfl
      capturing := fun h => absurd rfl h
      numIdle := nofun
      startTime := nofun }

/-- One sample of the run (R94 to R97). -/
theorem EngineInv.after_captureRun {s : State} (hi : EngineInv s) (hc : s.capState = .run) (v : Bit) :
    EngineInv (captureRun v s.now s) := by
  have hedge := hi.after_captureEdge v
  obtain ⟨m, l, t0, o, e⟩ := captureEdge_frame v s.now s
  rcases le_or_gt (idleCount v s).toNat s.cfgIdleLimit.toNat with h | h
  · rw [captureRun_goesOn h, e]
    rw [e] at hedge
    exact { hedge with numIdle := fun _ => h }
  · rw [captureRun_ends h]
    refine hedge.after_captureFinish ?_ _
    rw [e, hc]
    decide

/-- One sample in any state of CAP (R92, R93, R106). -/
theorem EngineInv.after_lineSample {s : State} (hi : EngineInv s) (v : Bit) (dt : Nat) : EngineInv (lineSample v dt s) := by
  have hclock : EngineInv { s with now := s.now + dt } :=
    { hi with startTime := fun h => le_add_right (hi.startTime h) }
  cases hc : s.capState with
  | idle => rw [lineSample_idle v dt hc]; exact hclock
  | run => rw [lineSample_run v dt hc]; exact hclock.after_captureRun hc v
  | wait =>
    have hw : s.capState ≠ .idle := by rw [hc]; decide
    obtain ⟨he, hb⟩ := hi.capture_at_work hw
    rw [lineSample_wait v dt hc]
    split
    · exact { hclock with
        busyIff := ⟨fun _ => .inl nofun, fun _ => hb⟩
        oneUnit := .inr he
        capturing := fun _ => hi.capturing hw
        numIdle := fun _ => Nat.zero_le _
        startTime := fun _ => le_refl (s.now + dt) }
    · exact hclock

/-! ## The commands that complete in one step -/

/-- A command accepted and completed at once, before its effect (R83). -/
theorem EngineInv.accepted {s : State} (hi : EngineInv s) (hb : s.busy = false) (w : Byte) :
    EngineInv (complete (accept w s)) := by
  obtain ⟨hc, he⟩ := hi.units_idle hb
  exact { hi with
    busyIff := by simp [hc, he]
    capturing := fun h => absurd hc h
    encoding := fun h => absurd he h }

/-- SNAP and SELRATE select an entry of the table (R64). -/
theorem EngineInv.after_selectRate {s : State} (hi : EngineInv s) {n : Nat} (hn : n ≤ 12) : EngineInv (selectRate n s) :=
  { hi with baudIdx := (Nat.mod_le n (2 ^ 4)).trans hn }

/-- VALIDATE (R155). -/
theorem EngineInv.after_validate {s : State} (hi : EngineInv s) (hb : s.busy = false) (w : Byte) :
    EngineInv (complete (validatePayload (accept w s))) := by
  obtain ⟨r, c, v, e⟩ := validatePayload_frame (accept w s)
  rw [e]
  exact { hi.accepted hb w with }

/-- DECODE finds one byte for each whole group of 16. -/
theorem length_decodedBytes (a : Arith) (s : State) : (decodedBytes a s).length = (s.trainLen - 2) / 16 := by
  simp [decodedBytes, analysedLen, remainingLen, Config.group, Config.preamble]

/-- A successful DECODE selects an entry of the rate table and stores one byte for each whole group (R119, R121). -/
theorem storeDecoded_eq (a : Arith) (s : State) :
    ∃ n p, n ≤ 12 ∧ p.length = (s.trainLen - 2) / 16 ∧
      storeDecoded a s = { storePayload p (selectRate n s) with decResult := .ok } :=
  ⟨_, _, nearestIdx_le _, length_decodedBytes a s, rfl⟩

/-- DECODE's effect: a failure empties the payload, a success stores at most 15 bytes (R114, R121, R122). -/
theorem EngineInv.after_decodeTrain {s : State} (hi : EngineInv (complete s)) (he : s.encPhase = .idle) (a : Arith) :
    EngineInv (complete (decodeTrain a s)) := by
  have hbyte : ¬ (s.encPhase = .bitMark ∨ s.encPhase = .bitGap) := by simp [he]
  by_cases h : analysedLen s = 0
  · rw [decodeTrain_noGroup h]
    exact { hi with payLen := Nat.zero_le _, encByte := fun hp => absurd hp hbyte }
  cases hz : thresholdZero a (analysedLen s) (markSum s)
  case true =>
    rw [decodeTrain_zeroThreshold h hz]
    exact { hi with payLen := Nat.zero_le _, encByte := fun hp => absurd hp hbyte }
  case false =>
    obtain ⟨n, p, hn, hp, e⟩ := storeDecoded_eq a { s with decWarnLen := frameLengthWrong s }
    have htrain : s.trainLen ≤ 256 := hi.trainLen
    have hgroups : (s.trainLen - 2) / 16 ≤ 15 := by omega
    have hlen : p.length ≤ Config.payMax := hp.trans_le hgroups
    rw [decodeTrain_ok h hz, e]
    exact { hi.after_selectRate hn with
      payloadWf := Memory.wf_ofListFrom _ _
      payloadBound := fun i b hm => (Memory.mem_ofListFrom hm).2.trans_le ((Nat.zero_add _).trans_le hlen)
      payLen := hlen
      encByte := fun hp => absurd hp hbyte }

/-! ## ENCODE -/

/-- The period ENCODE latches is positive when the numerator is (R143, R144). -/
theorem compensatedPeriod_pos {s : State} (hb : s.baud ≠ 0) (hp : 0 < periodNumerator s) : 0 < compensatedPeriod s := by
  have hn : 0 < s.baud.toNat := by
    rw [Nat.pos_iff_ne_zero]
    exact fun h => hb (BitVec.eq_of_toNat_eq h)
  unfold compensatedPeriod
  positivity

/-- ENCODE's issue (R144, R148). -/
theorem EngineInv.after_encodeStart {s : State} (hi : EngineInv s) (hb : s.busy = false) :
    EngineInv (encodeStart (accept 0x50 s)) := by
  have ha := hi.accepted hb 0x50
  have hc : s.capState = .idle := (hi.units_idle hb).1
  rcases encodeStart_cases (accept 0x50 s) with ⟨r, e⟩ | ⟨hbaud, hp, e⟩ <;> rw [e]
  · exact { ha with encoding := fun h => absurd (hi.units_idle hb).2 h }
  · exact { ha with
      busyIff := ⟨fun _ => .inr nofun, fun _ => rfl⟩
      oneUnit := .inl hc
      capturing := fun h => absurd hc h
      encoding := fun _ => ⟨rfl, rfl, compensatedPeriod_pos hbaud hp⟩
      encFirst := fun _ => ⟨rfl, rfl⟩
      encByte := nofun }

/-- One emitted event of a duration that is not negative. -/
theorem EngineInv.after_emit {s : State} (hi : EngineInv s) (k : EmitKind) {d : Rat} (hd : 0 ≤ d) : EngineInv (emit k d s) :=
  { hi with
    outDur := by
      intro e he
      rw [emit_out, List.mem_append, List.mem_singleton] at he
      rcases he with he | rfl
      · exact hi.outDur e he
      · exact hd }

/-- A multiple of the held period is not negative while ENC is at work. -/
theorem EngineInv.periods_nonneg {s : State} (hi : EngineInv s) (he : s.encPhase ≠ .idle) (n : Nat) :
    0 ≤ (n : Rat) * s.encPeriod := by
  obtain ⟨-, -, hpos⟩ := hi.encoding he
  positivity

theorem EngineInv.after_emitMark {s : State} (hi : EngineInv s) (he : s.encPhase ≠ .idle) (i : Instr) :
    EngineInv (emitMark i s) := hi.after_emit .carrier (hi.periods_nonneg he _)

theorem EngineInv.after_emitSpace {s : State} (hi : EngineInv s) (he : s.encPhase ≠ .idle) (i : Instr) :
    EngineInv (emitSpace i s) := hi.after_emit .gap (hi.periods_nonneg he _)

/-- ENC goes from one phase at work to another, its position legal there. -/
theorem EngineInv.moveEncoder {s : State} (hi : EngineInv s) (he : s.encPhase ≠ .idle) {p : EncPhase} {j : Nat} {k : Fin 8}
    (hp : p ≠ .idle) (hfirst : p = .startMark ∨ p = .startGap → j = 0 ∧ k = 0)
    (hbyte : p = .bitMark ∨ p = .bitGap → j < s.payLen) :
    EngineInv { s with encPhase := p, encByte := j, encBit := k } :=
  have hw := hi.encode_at_work he
  { hi with
    busyIff := ⟨fun _ => .inr hp, fun _ => hw.2⟩
    oneUnit := .inl hw.1
    encoding := fun _ => hi.encoding he
    encFirst := hfirst
    encByte := hbyte }

/-- After a data bit: the next one stands at a valid byte (R148). -/
theorem EngineInv.after_nextBit {s : State} (hi : EngineInv s) (he : s.encPhase = .bitGap) : EngineInv (nextBit s) := by
  have hwork : s.encPhase ≠ .idle := by rw [he]; decide
  unfold nextBit
  split
  · exact hi.moveEncoder hwork nofun nofun fun _ => hi.encByte (.inr he)
  split
  case isTrue hlt => exact hi.moveEncoder hwork nofun nofun fun _ => hlt
  · exact hi.moveEncoder hwork nofun nofun nofun

/-- One event of the encoder (R148). -/
theorem EngineInv.after_encodeStep {s : State} (hi : EngineInv s) (he : s.encPhase ≠ .idle) : EngineInv (encodeStep s) := by
  have hmark := hi.after_emitMark he
  have hspace := hi.after_emitSpace he
  cases hp : s.encPhase with
  | idle => exact absurd hp he
  | startMark =>
    rw [encodeStep_startMark hp]
    exact (hmark _).moveEncoder he nofun (fun _ => hi.encFirst (.inl hp)) nofun
  | startGap =>
    rw [encodeStep_startGap hp]
    split
    case isTrue hlen =>
      refine (hspace _).moveEncoder he nofun nofun fun _ => ?_
      obtain ⟨hbyte, -⟩ := hi.encFirst (.inr hp)
      exact hbyte.trans_lt hlen
    case isFalse => exact (hspace _).moveEncoder he nofun nofun nofun
  | bitMark =>
    rw [encodeStep_bitMark hp]
    exact (hmark _).moveEncoder he nofun nofun fun _ => hi.encByte (.inl hp)
  | bitGap => rw [encodeStep_bitGap hp]; exact (hspace _).after_nextBit hp
  | stopMark => rw [encodeStep_stopMark hp]; exact (hmark _).moveEncoder he nofun nofun nofun
  | stopGap =>
    have hc := (hi.encode_at_work he).1
    have hnone : ¬ (s.capState ≠ .idle ∨ EncPhase.idle ≠ .idle) := by simp [hc]
    rw [encodeStep_stopGap hp]
    exact { hspace .lineStop with
      busyIff := ⟨nofun, fun h => absurd h hnone⟩
      oneUnit := .inr rfl
      encoding := fun h => absurd rfl h
      encFirst := nofun
      encByte := nofun }

/-! ## The host port and the whole step -/

/-- A host write while BUSY = 0 stays inside every bound (R21, R48). -/
theorem EngineInv.after_writeRegister {s : State} (hi : EngineInv s) (hb : s.busy = false) (r : HostWrite) :
    EngineInv (writeRegister r s) := by
  obtain ⟨hc, he⟩ := hi.units_idle hb
  have hrun : s.capState ≠ .run := by rw [hc]; decide
  cases r with
  | cfgIdleLimit v =>
    dsimp only [writeRegister]
    split
    · exact hi
    case isFalse hv => exact { hi with idleLimit := hv, numIdle := fun h => absurd h hrun }
  | trainEntry i p =>
    dsimp only [writeRegister]
    split
    case isTrue hlt =>
      exact { hi with
        trainWf := Memory.wf_write _ _ hi.trainWf
        trainBound := fun j q h => Memory.bound_write _ hlt (fun e he => hi.trainBound e.1 e.2 he) (j, q) h }
    · exact hi
  | payByte i b =>
    dsimp only [writeRegister]
    split
    case isTrue hlt =>
      exact { hi with
        payloadWf := Memory.wf_write _ _ hi.payloadWf
        payloadBound := fun j q h => Memory.bound_write _ hlt (fun e he => hi.payloadBound e.1 e.2 he) (j, q) h }
    · exact hi
  | trainLen n =>
    dsimp only [writeRegister]
    split
    case isTrue hle => exact { hi with trainLen := hle }
    · exact hi
  | payLen n =>
    dsimp only [writeRegister]
    split
    case isTrue hle => exact { hi with payLen := hle, encByte := by simp [he] }
    · exact hi
  | cfgIdleLevel | cfgMinPulses | cfgCompUs | cfgStopRem | baud | x => exact { hi with }

/-- Every move keeps the engine's invariant. -/
theorem EngineInv.after_transition {s t : State} {e : Event} (hi : EngineInv s) (h : Transition s e t) : EngineInv t := by
  cases h with
  | refused | read => exact { hi with }
  | writeLost | rest => exact hi
  | capture hb => exact hi.after_captureStart hb
  | decode hb => exact (hi.accepted hb 0x20).after_decodeTrain (hi.units_idle hb).2 _
  | rate w n hb hn => exact { (hi.accepted hb w).after_selectRate hn with }
  | encode hb => exact hi.after_encodeStart hb
  | validate hb => exact hi.after_validate hb _
  | write r hb => exact hi.after_writeRegister hb r
  | sample v dt => exact hi.after_lineSample v dt
  | event he => exact hi.after_encodeStep he
  | draw =>
    have hd : EngineInv { s with draws := s.draws + 1 } := { hi with }
    exact hd.after_lineSample _ _
  | reset => exact engineInv_resetEngine s

/-- Settles O59: every move keeps the invariant, operation by operation. -/
theorem everyStepKeepsInv : Obligations.EveryStepKeepsInv :=
  fun _ _ hi h => hi.without_move.after_transition (step_transition h)

/-- Settles O60. -/
theorem resetMeetsInvariants : Obligations.ResetMeetsInvariants := ⟨engineInv_reset, captureInv_reset⟩

end Sys2Proof.Machine
end

section
/-! PROOFS. What a capture in progress relies on is kept by every move, and a train that completes OK alternates and is odd
(10_state.md rule R15, 40_capture.md rules R91 to R104). -/

namespace Sys2Proof.Machine

/-! ## The levels of a train -/

theorem bit_eq_of_ne_one_sub : ∀ {v b : Bit}, v ≠ 1 - b → v = b := by decide

/-- The levels of a train alternate (R102). -/
theorem entryLevel_succ (s : State) (n : Nat) : entryLevel s (n + 1) = 1 - entryLevel s n := by
  rcases Nat.mod_two_eq_zero_or_one n with h | h
  · simp [entryLevel, activeLevel, h, Nat.succ_mod_two_eq_one_iff.2 h]
  · simp [entryLevel, activeLevel, h, Nat.succ_mod_two_eq_zero_iff.2 h]

/-- Only an odd entry has the active level. -/
theorem odd_of_idle_eq_one_sub_entryLevel {s : State} {n : Nat} (h : s.cfgIdleLevel = 1 - entryLevel s n) : n % 2 = 1 := by
  have hne : ∀ b : Bit, b ≠ 1 - b := by decide
  by_contra hn
  rw [entryLevel, if_pos (by omega)] at h
  exact hne _ h

/-- What the run relies on when `v` is the level of its latest sample: unless it overflowed, the train alternates, and an edge
away from `v` gives the next entry's level. `CaptureInv.running` says it of CAP_PREV. -/
def Recorded (s : State) (v : Bit) : Prop := s.capOvf = false → TrainAlternates s ∧ v = 1 - entryLevel s s.trainLen

/-- The sample's own edge keeps the record, now up to its level (R94, R99). -/
theorem Recorded.after_captureEdge {s : State} (h : Recorded s s.capPrev) (v : Bit) (t : Nat) :
    Recorded (captureEdge v t s) v := by
  rcases captureEdge_cases v t s with ⟨hv, e⟩ | ⟨hv, -, e⟩ | ⟨-, -, e⟩ <;> rw [e]
  · rwa [hv]
  · intro ho
    obtain ⟨halt, hprev⟩ := h ho
    have hlevel : v = entryLevel s s.trainLen := bit_eq_of_ne_one_sub (hprev ▸ hv)
    refine ⟨fun i hi => ?_, ?_⟩
    · rcases Nat.lt_succ_iff_lt_or_eq.1 hi with hlt | rfl
      · exact (congrArg Pulse.level (readTrain_writeTrain_other s _ hlt.ne)).trans (halt i hlt)
      · exact (congrArg Pulse.level (readTrain_writeTrain_same s _ _)).trans hlevel
    · have hnext : 1 - entryLevel s (s.trainLen + 1) = entryLevel s s.trainLen := by
        rw [entryLevel_succ, sub_sub_cancel]
      exact hlevel.trans hnext.symm
  · exact nofun

/-! ## The invariant of a capture in progress -/

/-- An idle CAP relies on nothing. -/
theorem captureInv_of_idle {s : State} (h : s.capState = .idle) : CaptureInv s where
  waiting hw := by rw [h] at hw; cases hw
  running hr := by rw [h] at hr; cases hr

/-- A capture that has ended is idle, whatever its result. -/
theorem captureFinish_capState (s : State) : (captureFinish s).capState = .idle := by
  rcases captureFinish_cases s with ⟨-, e⟩ | ⟨r, -, e⟩ <;> rw [e]

/-- One sample of the run. -/
theorem CaptureInv.after_captureRun {s : State} (hc : CaptureInv s) (h : s.capState = .run) (v : Bit) (t : Nat) :
    CaptureInv (captureRun v t s) := by
  have hrec := Recorded.after_captureEdge (hc.running h) v t
  obtain ⟨m, l, t0, o, e⟩ := captureEdge_frame v t s
  rcases le_or_gt (idleCount v s).toNat s.cfgIdleLimit.toNat with hn | hn
  · rw [captureRun_goesOn hn, e]
    rw [e] at hrec
    exact ⟨fun hw => (by cases h.symm.trans hw), fun _ => hrec⟩
  · rw [captureRun_ends hn]
    exact captureInv_of_idle (captureFinish_capState _)

/-- One sample in any state of CAP: the sample that starts the run leaves the empty train and the active level (R93). -/
theorem CaptureInv.after_lineSample {s : State} (hc : CaptureInv s) (v : Bit) (dt : Nat) :
    CaptureInv (lineSample v dt s) := by
  have hclock : CaptureInv { s with now := s.now + dt } := ⟨hc.waiting, hc.running⟩
  cases h : s.capState with
  | idle => rw [lineSample_idle v dt h]; exact hclock
  | run => rw [lineSample_run v dt h]; exact hclock.after_captureRun h v _
  | wait =>
    rw [lineSample_wait v dt h]
    split
    · obtain ⟨hlen, -⟩ := hc.waiting h
      refine ⟨nofun, fun _ _ => ⟨fun i hi => ?_, ?_⟩⟩
      · have hi' : i < s.trainLen := hi
        omega
      · have hfirst : activeLevel s = 1 - entryLevel s s.trainLen := by rw [hlen]; rfl
        exact hfirst
    · exact hclock

/-- Every move keeps what a capture in progress relies on. -/
theorem CaptureInv.after_transition {s t : State} {e : Event} (hi : EngineInv s) (hc : CaptureInv s)
    (h : Transition s e t) : CaptureInv t := by
  have idle : s.busy = false → s.capState = .idle := fun hb => (hi.units_idle hb).1
  cases h with
  | refused | read => exact ⟨hc.waiting, hc.running⟩
  | writeLost | rest => exact hc
  | capture => exact ⟨fun _ => ⟨rfl, rfl⟩, nofun⟩
  | decode hb =>
    obtain ⟨_, _, _, _, _, _, _, _, e⟩ := decodeTrain_frame Config.arith (accept 0x20 s)
    rw [e]
    exact captureInv_of_idle (idle hb)
  | rate _ _ hb => exact captureInv_of_idle (idle hb)
  | encode hb =>
    obtain ⟨_, _, _, _, _, _, e⟩ := encodeStart_frame (accept 0x50 s)
    rw [e]
    exact captureInv_of_idle (idle hb)
  | validate hb =>
    obtain ⟨_, _, _, e⟩ := validatePayload_frame (accept 0x60 s)
    rw [e]
    exact captureInv_of_idle (idle hb)
  | write r hb =>
    obtain ⟨_, _, _, _, _, _, _, _, _, _, _, e⟩ := writeRegister_frame r s
    rw [e]
    exact captureInv_of_idle (idle hb)
  | sample v dt => exact hc.after_lineSample v dt
  | event =>
    obtain ⟨_, _, _, _, _, _, -, e⟩ := encodeStep_cases s
    rw [e]
    exact ⟨hc.waiting, hc.running⟩
  | draw =>
    have hd : CaptureInv { s with draws := s.draws + 1 } := ⟨hc.waiting, hc.running⟩
    exact hd.after_lineSample _ _
  | reset => exact captureInv_of_idle rfl

/-- Settles O18: every move keeps the record of the capture, operation by operation. -/
theorem captureProgressKept : Obligations.CaptureProgressKept :=
  fun _ _ hi hc h =>
    CaptureInv.after_transition hi.without_move ⟨hc.waiting, hc.running⟩ (step_transition h)

/-! ## A completed train -/

/-- A sample that counts above the limit is at the idle level (R95). -/
theorem idle_of_lt_idleCount {v : Bit} {s : State} {n : Nat} (h : n < (idleCount v s).toNat) : v = s.cfgIdleLevel := by
  by_contra hv
  rw [idleCount, if_neg hv] at h
  exact absurd h (Nat.not_lt_zero n)

/-- A train of odd length that alternates begins and ends at the idle level. -/
theorem TrainAlternates.ends_idle {s : State} (h : TrainAlternates s) (hodd : s.trainLen % 2 = 1) :
    (readTrain s 0).level = s.cfgIdleLevel ∧ (readTrain s (s.trainLen - 1)).level = s.cfgIdleLevel := by
  have even : ∀ i < s.trainLen, i % 2 = 0 → (readTrain s i).level = s.cfgIdleLevel := by
    intro i hi hpar
    rw [h i hi, entryLevel, if_pos hpar]
  exact ⟨even 0 (by omega) rfl, even _ (by omega) (by omega)⟩

/-- The sample of the run that completes the capture OK leaves an alternating train of odd length (R102, R104). -/
theorem captureRun_completes {s : State} {v : Bit} {t : Nat} (hrec : Recorded s s.capPrev) (hnone : s.capResult = .none)
    (hok : (captureRun v t s).capResult = .ok) :
    (captureRun v t s).trainLen % 2 = 1 ∧ TrainAlternates (captureRun v t s) := by
  have hedge := hrec.after_captureEdge v t
  obtain ⟨m, l, t0, o, e⟩ := captureEdge_frame v t s
  rcases le_or_gt (idleCount v s).toNat s.cfgIdleLimit.toNat with hn | hn
  · rw [captureRun_goesOn hn, e] at hok
    cases hnone.symm.trans hok
  · have hv := idle_of_lt_idleCount hn
    rw [captureRun_ends hn, e] at hok ⊢
    rw [e] at hedge
    rcases captureFinish_cases { s with train := m, trainLen := l, capT0 := t0, capOvf := o, capNumIdle := idleCount v s }
      with ⟨ho, f⟩ | ⟨r, hr, f⟩ <;> rw [f] at hok ⊢
    · obtain ⟨halt, hlast⟩ := hedge ho
      exact ⟨odd_of_idle_eq_one_sub_entryLevel (hv.symm.trans hlast), halt⟩
    · exact absurd hok hr

/-- So does such a sample given by the line. -/
theorem lineSample_completes {s : State} {v : Bit} {dt : Nat} (hrun : s.capState = .run) (hrec : Recorded s s.capPrev)
    (hnone : s.capResult = .none) (hok : (lineSample v dt s).capResult = .ok) :
    (lineSample v dt s).trainLen % 2 = 1 ∧ TrainAlternates (lineSample v dt s) := by
  rw [lineSample_run v dt hrun] at hok ⊢
  exact captureRun_completes hrec hnone hok

/-- A move made while a capture runs leaves CAP_RESULT as it is, is a reset, or is a sample. -/
theorem Transition.while_running {s t : State} {e : Event} (h : Transition s e t) (hi : EngineInv s)
    (hrun : s.capState = .run) :
    t.capResult = s.capResult ∨ t = resetEngine s ∨ ∃ v dt k, t = lineSample v dt { s with draws := k } := by
  have hwork : s.capState ≠ .idle := by rw [hrun]; decide
  obtain ⟨hidle, hbusy⟩ := hi.capture_at_work hwork
  have free : s.busy = false → False := by simp [hbusy]
  cases h with
  | refused | read | writeLost | rest => exact .inl rfl
  | capture hb | decode hb | encode hb | validate hb | rate _ _ hb | write _ hb => exact (free hb).elim
  | sample v dt => exact .inr (.inr ⟨v, dt, s.draws, rfl⟩)
  | event he => exact absurd hidle he
  | draw => exact .inr (.inr ⟨_, _, _, rfl⟩)
  | reset => exact .inr (.inl rfl)

/-- Settles O19: the completing sample is at the idle level, so the next entry would be at the active level and the length is
odd. -/
theorem completedTrainAlternatesAndIsOdd : Obligations.CompletedTrainAlternatesAndIsOdd := by
  intro s t hi hc hrun h hok
  have hwork : s.capState ≠ .idle := by rw [hrun]; decide
  obtain ⟨-, hnone⟩ := hi.capturing hwork
  have hdone : t.trainLen % 2 = 1 ∧ TrainAlternates t := by
    rcases (step_transition h).while_running hi.without_move hrun with e | rfl | ⟨v, dt, k, rfl⟩
    · cases hnone.symm.trans (e.symm.trans hok)
    · cases hok
    · exact lineSample_completes hrun (hc.running hrun) hnone hok
  exact ⟨hdone.1, hdone.2, hdone.2.ends_idle hdone.1⟩

end Sys2Proof.Machine
end

section
/-! PROOFS. Who may change which register: configuration and X only the host, OUT only the encoder, each result field only its
own operation, each buffer only its producer (10_state.md rules R19 to R36). -/

namespace Sys2Proof.Machine

/-! ## What each operation leaves of the registers these statements speak of

The frame equations of the operations, read off field by field for `simp`. -/

/-- A sample leaves every register of another unit and of the host as it is. -/
@[simp] theorem lineSample_keeps (v : Bit) (dt : Nat) (s : State) :
    (lineSample v dt s).cfgIdleLevel = s.cfgIdleLevel ∧ (lineSample v dt s).cfgIdleLimit = s.cfgIdleLimit ∧
    (lineSample v dt s).cfgMinPulses = s.cfgMinPulses ∧ (lineSample v dt s).cfgCompUs = s.cfgCompUs ∧
    (lineSample v dt s).cfgStopRem = s.cfgStopRem ∧ (lineSample v dt s).x = s.x ∧ (lineSample v dt s).payload = s.payload ∧
    (lineSample v dt s).payLen = s.payLen ∧ (lineSample v dt s).payGen = s.payGen ∧ (lineSample v dt s).baud = s.baud ∧
    (lineSample v dt s).baudIdx = s.baudIdx ∧ (lineSample v dt s).cmdErr = s.cmdErr ∧
    (lineSample v dt s).opActive = s.opActive ∧ (lineSample v dt s).decResult = s.decResult ∧
    (lineSample v dt s).decWarnLen = s.decWarnLen ∧ (lineSample v dt s).encResult = s.encResult ∧
    (lineSample v dt s).chkResult = s.chkResult ∧ (lineSample v dt s).chkCalc = s.chkCalc ∧
    (lineSample v dt s).chkRecv = s.chkRecv ∧ (lineSample v dt s).out = s.out ∧ (lineSample v dt s).encPeriod = s.encPeriod := by
  obtain ⟨_, _, _, _, _, _, _, _, _, _, _, _, e⟩ := lineSample_frame v dt s
  simp [e]

/-- One step of the encoder leaves every register but its own as it is. -/
@[simp] theorem encodeStep_keeps (s : State) :
    (encodeStep s).cfgIdleLevel = s.cfgIdleLevel ∧ (encodeStep s).cfgIdleLimit = s.cfgIdleLimit ∧
    (encodeStep s).cfgMinPulses = s.cfgMinPulses ∧ (encodeStep s).cfgCompUs = s.cfgCompUs ∧
    (encodeStep s).cfgStopRem = s.cfgStopRem ∧ (encodeStep s).x = s.x ∧ (encodeStep s).train = s.train ∧
    (encodeStep s).trainLen = s.trainLen ∧ (encodeStep s).trainGen = s.trainGen ∧ (encodeStep s).payload = s.payload ∧
    (encodeStep s).payLen = s.payLen ∧ (encodeStep s).payGen = s.payGen ∧ (encodeStep s).baud = s.baud ∧
    (encodeStep s).baudIdx = s.baudIdx ∧ (encodeStep s).cmdErr = s.cmdErr ∧ (encodeStep s).opActive = s.opActive ∧
    (encodeStep s).capResult = s.capResult ∧ (encodeStep s).decResult = s.decResult ∧
    (encodeStep s).decWarnLen = s.decWarnLen ∧ (encodeStep s).chkResult = s.chkResult ∧
    (encodeStep s).chkCalc = s.chkCalc ∧ (encodeStep s).chkRecv = s.chkRecv ∧ (encodeStep s).encPeriod = s.encPeriod := by
  obtain ⟨_, _, _, _, _, _, -, e⟩ := encodeStep_cases s
  simp [e]

/-- ENCODE's issue leaves every register but its own as it is. -/
@[simp] theorem encodeStart_keeps (s : State) :
    (encodeStart s).cfgIdleLevel = s.cfgIdleLevel ∧ (encodeStart s).cfgIdleLimit = s.cfgIdleLimit ∧
    (encodeStart s).cfgMinPulses = s.cfgMinPulses ∧ (encodeStart s).cfgCompUs = s.cfgCompUs ∧
    (encodeStart s).cfgStopRem = s.cfgStopRem ∧ (encodeStart s).x = s.x ∧ (encodeStart s).train = s.train ∧
    (encodeStart s).trainLen = s.trainLen ∧ (encodeStart s).trainGen = s.trainGen ∧ (encodeStart s).payload = s.payload ∧
    (encodeStart s).payLen = s.payLen ∧ (encodeStart s).payGen = s.payGen ∧ (encodeStart s).baud = s.baud ∧
    (encodeStart s).baudIdx = s.baudIdx ∧ (encodeStart s).cmdErr = s.cmdErr ∧ (encodeStart s).opActive = s.opActive ∧
    (encodeStart s).capResult = s.capResult ∧ (encodeStart s).decResult = s.decResult ∧
    (encodeStart s).decWarnLen = s.decWarnLen ∧ (encodeStart s).chkResult = s.chkResult ∧
    (encodeStart s).chkCalc = s.chkCalc ∧ (encodeStart s).chkRecv = s.chkRecv ∧ (encodeStart s).out = s.out := by
  obtain ⟨_, _, _, _, _, _, e⟩ := encodeStart_frame s
  simp [e]

/-- DECODE leaves every register but its own, the payload and the rate as it is. -/
@[simp] theorem decodeTrain_keeps (a : Arith) (s : State) :
    (decodeTrain a s).cfgIdleLevel = s.cfgIdleLevel ∧ (decodeTrain a s).cfgIdleLimit = s.cfgIdleLimit ∧
    (decodeTrain a s).cfgMinPulses = s.cfgMinPulses ∧ (decodeTrain a s).cfgCompUs = s.cfgCompUs ∧
    (decodeTrain a s).cfgStopRem = s.cfgStopRem ∧ (decodeTrain a s).x = s.x ∧ (decodeTrain a s).train = s.train ∧
    (decodeTrain a s).trainLen = s.trainLen ∧ (decodeTrain a s).trainGen = s.trainGen ∧
    (decodeTrain a s).cmdErr = s.cmdErr ∧ (decodeTrain a s).opActive = s.opActive ∧
    (decodeTrain a s).capResult = s.capResult ∧ (decodeTrain a s).encResult = s.encResult ∧
    (decodeTrain a s).chkResult = s.chkResult ∧ (decodeTrain a s).chkCalc = s.chkCalc ∧
    (decodeTrain a s).chkRecv = s.chkRecv ∧ (decodeTrain a s).out = s.out ∧ (decodeTrain a s).encPeriod = s.encPeriod := by
  obtain ⟨_, _, _, _, _, _, _, _, e⟩ := decodeTrain_frame a s
  simp [e]

/-- VALIDATE leaves every register but its own as it is. -/
@[simp] theorem validatePayload_keeps (s : State) :
    (validatePayload s).cfgIdleLevel = s.cfgIdleLevel ∧ (validatePayload s).cfgIdleLimit = s.cfgIdleLimit ∧
    (validatePayload s).cfgMinPulses = s.cfgMinPulses ∧ (validatePayload s).cfgCompUs = s.cfgCompUs ∧
    (validatePayload s).cfgStopRem = s.cfgStopRem ∧ (validatePayload s).x = s.x ∧ (validatePayload s).train = s.train ∧
    (validatePayload s).trainLen = s.trainLen ∧ (validatePayload s).trainGen = s.trainGen ∧
    (validatePayload s).payload = s.payload ∧ (validatePayload s).payLen = s.payLen ∧
    (validatePayload s).payGen = s.payGen ∧ (validatePayload s).baud = s.baud ∧ (validatePayload s).baudIdx = s.baudIdx ∧
    (validatePayload s).cmdErr = s.cmdErr ∧ (validatePayload s).opActive = s.opActive ∧
    (validatePayload s).capResult = s.capResult ∧ (validatePayload s).decResult = s.decResult ∧
    (validatePayload s).decWarnLen = s.decWarnLen ∧ (validatePayload s).encResult = s.encResult ∧
    (validatePayload s).out = s.out ∧ (validatePayload s).encPeriod = s.encPeriod := by
  obtain ⟨_, _, _, e⟩ := validatePayload_frame s
  simp [e]

/-- A host write leaves every register the host may not write as it is. -/
@[simp] theorem writeRegister_keeps (r : HostWrite) (s : State) :
    (writeRegister r s).trainGen = s.trainGen ∧ (writeRegister r s).payGen = s.payGen ∧
    (writeRegister r s).baudIdx = s.baudIdx ∧ (writeRegister r s).cmdErr = s.cmdErr ∧
    (writeRegister r s).opActive = s.opActive ∧ (writeRegister r s).capResult = s.capResult ∧
    (writeRegister r s).decResult = s.decResult ∧ (writeRegister r s).decWarnLen = s.decWarnLen ∧
    (writeRegister r s).encResult = s.encResult ∧ (writeRegister r s).chkResult = s.chkResult ∧
    (writeRegister r s).chkCalc = s.chkCalc ∧ (writeRegister r s).chkRecv = s.chkRecv ∧ (writeRegister r s).out = s.out ∧
    (writeRegister r s).encPeriod = s.encPeriod := by
  obtain ⟨_, _, _, _, _, _, _, _, _, _, _, e⟩ := writeRegister_frame r s
  simp [e]

/-- CAPTURE's issue clears its result and the train, and leaves the other registers as they are. -/
@[simp] theorem captureStart_keeps (s : State) :
    (captureStart s).cfgIdleLevel = s.cfgIdleLevel ∧ (captureStart s).cfgIdleLimit = s.cfgIdleLimit ∧
    (captureStart s).cfgMinPulses = s.cfgMinPulses ∧ (captureStart s).cfgCompUs = s.cfgCompUs ∧
    (captureStart s).cfgStopRem = s.cfgStopRem ∧ (captureStart s).x = s.x ∧ (captureStart s).payload = s.payload ∧
    (captureStart s).payLen = s.payLen ∧ (captureStart s).payGen = s.payGen ∧ (captureStart s).decResult = s.decResult ∧
    (captureStart s).decWarnLen = s.decWarnLen ∧ (captureStart s).encResult = s.encResult ∧
    (captureStart s).chkResult = s.chkResult ∧ (captureStart s).chkCalc = s.chkCalc ∧
    (captureStart s).chkRecv = s.chkRecv ∧ (captureStart s).out = s.out := by
  simp [captureStart]

/-- Outside the run a sample leaves the train and CAP_RESULT as they are. -/
theorem lineSample_keeps_outside_run (v : Bit) (dt : Nat) {s : State} (h : s.capState ≠ .run) :
    (lineSample v dt s).capResult = s.capResult ∧ (lineSample v dt s).trainLen = s.trainLen ∧
    (lineSample v dt s).train = s.train ∧ (lineSample v dt s).trainGen = s.trainGen := by
  obtain ⟨_, _, _, _, _, e⟩ := lineSample_frame_outside_run v dt h
  simp [e]

/-! ## Configuration -/

/-- The configuration registers and X of `t` are those of `s` (R20 to R25). -/
def SameConfig (s t : State) : Prop :=
  t.cfgIdleLevel = s.cfgIdleLevel ∧ t.cfgIdleLimit = s.cfgIdleLimit ∧ t.cfgMinPulses = s.cfgMinPulses ∧
  t.cfgCompUs = s.cfgCompUs ∧ t.cfgStopRem = s.cfgStopRem ∧ t.x = s.x

/-- A move that is neither a host write nor a reset leaves the configuration. -/
theorem Transition.sameConfig {s t : State} {e : Event} (h : Transition s e t) (hw : ∀ r, e ≠ .write r)
    (hr : e ≠ .reset) : SameConfig s t := by
  cases h with
  | writeLost r | write r => exact absurd rfl (hw r)
  | reset => exact absurd rfl hr
  | draw => simp [SameConfig, drawSample]
  | refused | read | rest | capture | decode | rate | encode | validate | sample | event => simp [SameConfig]

/-- Settles O51. -/
theorem configurationIsTheHosts : Obligations.ConfigurationIsTheHosts :=
  fun _ _ h hw hr => (step_transition h).sameConfig hw hr

/-- Settles O55: while BUSY = 1 no command is accepted and no host write lands, and what runs writes none of these. -/
theorem busyOperandsHold : Obligations.BusyOperandsHold := by
  intro s t h hb hr
  have free : (afterMove s).busy = false → False := by simp [hb]
  have hmove := step_transition h
  generalize nextMove s = e at hmove hr
  cases hmove with
  | reset => exact absurd rfl hr
  | capture hf | decode hf | encode hf | validate hf | rate _ _ hf | write _ hf => exact (free hf).elim
  | draw => simp [drawSample]
  | refused | writeLost | read | sample | event | rest => simp

/-! ## OUT -/

/-- Only ENC's own step and reset touch OUT. -/
theorem Transition.out_eq {s t : State} {e : Event} (h : Transition s e t) (hr : e ≠ .reset) :
    t.out = s.out ∨ s.encPhase ≠ .idle ∧ t = encodeStep s := by
  cases h with
  | reset => exact absurd rfl hr
  | event he => exact .inr ⟨he, rfl⟩
  | draw => exact .inl (by simp [drawSample])
  | refused | read | writeLost | write | rest | capture | decode | rate | encode | validate | sample =>
    exact .inl (by simp)

/-- Settles O52. -/
theorem outIsAppendOnly : Obligations.OutIsAppendOnly := by
  intro s t h hr
  rcases (step_transition h).out_eq hr with hsame | ⟨hwork, rfl⟩
  · exact ⟨[], by simpa using hsame, Nat.zero_le 1, fun hl => absurd rfl hl⟩
  · obtain ⟨l, _, _, _, _, _, hl, e⟩ := encodeStep_cases (afterMove s)
    exact ⟨l, by rw [e]; rfl, hl, fun _ => hwork⟩

/-! ## Result fields and buffers, each with its producer -/

/-- Without CAPTURE and outside its run CAP_RESULT stays, and so does the train unless the host writes it. -/
theorem Transition.capture_owned {s t : State} {e : Event} (h : Transition s e t) (hr : e ≠ .reset)
    (hc : e ≠ .command 0x10) (hrun : s.capState ≠ .run) :
    t.capResult = s.capResult ∧
    ((∀ r, e ≠ .write r) → t.trainLen = s.trainLen ∧ t.train = s.train ∧ t.trainGen = s.trainGen) := by
  cases h with
  | reset => exact absurd rfl hr
  | capture => exact absurd rfl hc
  | write r => exact ⟨by simp, fun hw => absurd rfl (hw r)⟩
  | sample v dt =>
    obtain ⟨hres, htrain⟩ := lineSample_keeps_outside_run v dt hrun
    exact ⟨hres, fun _ => htrain⟩
  | draw =>
    have hrun' : { s with draws := s.draws + 1 }.capState ≠ .run := hrun
    obtain ⟨hres, htrain⟩ := lineSample_keeps_outside_run (Config.lineLevel s.draws) (Config.lineStep s.draws) hrun'
    exact ⟨hres, fun _ => htrain⟩
  | refused | read | writeLost | rest | decode | rate | encode | validate | event => simp

/-- Without DECODE its result and its warning stay, and so does the payload unless the host writes it. -/
theorem Transition.decode_owned {s t : State} {e : Event} (h : Transition s e t) (hr : e ≠ .reset)
    (hc : e ≠ .command 0x20) :
    (t.decResult = s.decResult ∧ t.decWarnLen = s.decWarnLen) ∧
    ((∀ r, e ≠ .write r) → t.payLen = s.payLen ∧ t.payload = s.payload ∧ t.payGen = s.payGen) := by
  cases h with
  | reset => exact absurd rfl hr
  | decode => exact absurd rfl hc
  | write r => exact ⟨by simp, fun hw => absurd rfl (hw r)⟩
  | draw => simp [drawSample]
  | refused | read | writeLost | rest | capture | rate | encode | validate | sample | event => simp

/-- Without ENCODE and before its last event ENC_RESULT stays. -/
theorem Transition.encode_owned {s t : State} {e : Event} (h : Transition s e t) (hr : e ≠ .reset)
    (hc : e ≠ .command 0x50) (hgap : s.encPhase ≠ .stopGap) : t.encResult = s.encResult := by
  cases h with
  | reset => exact absurd rfl hr
  | encode => exact absurd rfl hc
  | event => exact encodeStep_encResult hgap
  | draw => simp [drawSample]
  | refused | read | writeLost | write | rest | capture | decode | rate | validate | sample => simp

/-- Without VALIDATE the checksum registers stay. -/
theorem Transition.validate_owned {s t : State} {e : Event} (h : Transition s e t) (hr : e ≠ .reset)
    (hc : e ≠ .command 0x60) : t.chkResult = s.chkResult ∧ t.chkCalc = s.chkCalc ∧ t.chkRecv = s.chkRecv := by
  cases h with
  | reset => exact absurd rfl hr
  | validate => exact absurd rfl hc
  | draw => simp [drawSample]
  | refused | read | writeLost | write | rest | capture | decode | rate | encode | sample | event => simp

/-- Without a write of CMD, CMD_ERR stays. -/
theorem Transition.cmdErr_owned {s t : State} {e : Event} (h : Transition s e t) (hr : e ≠ .reset)
    (hc : ∀ w, e ≠ .command w) : t.cmdErr = s.cmdErr := by
  cases h with
  | reset => exact absurd rfl hr
  | refused w | rate w => exact absurd rfl (hc w)
  | capture | decode | encode | validate => exact absurd rfl (hc _)
  | draw => simp [drawSample]
  | read | writeLost | write | rest | sample | event => simp

/-- Settles O53: each field's owner, contraposed. -/
theorem resultFieldsAreOwned : Obligations.ResultFieldsAreOwned := by
  intro s t h hr
  have hmove := step_transition h
  refine ⟨fun hne => ?_, fun hne => ?_, fun hne => ?_, fun hne => ?_, fun hne => ?_⟩
  · by_contra hn
    obtain ⟨hc, hrun⟩ := not_or.1 hn
    exact hne (hmove.capture_owned hr hc hrun).1
  · by_contra hc
    obtain ⟨hres, hwarn⟩ := (hmove.decode_owned hr hc).1
    exact hne.elim (absurd hres) (absurd hwarn)
  · by_contra hn
    obtain ⟨hc, hgap⟩ := not_or.1 hn
    exact hne (hmove.encode_owned hr hc hgap)
  · by_contra hc
    obtain ⟨hres, hcalc, hrecv⟩ := hmove.validate_owned hr hc
    exact hne.elim (absurd hres) fun h => h.elim (absurd hcalc) (absurd hrecv)
  · by_contra hn
    exact hne (hmove.cmdErr_owned hr (not_exists.1 hn))

/-- The train reads the same when its contents and their generation are the same. -/
theorem readTrain_congr {s t : State} (hm : t.train = s.train) (hg : t.trainGen = s.trainGen) (i : Nat) :
    readTrain t i = readTrain s i := by
  rw [readTrain, readTrain, hm, hg]

/-- So does the payload. -/
theorem readPayload_congr {s t : State} (hm : t.payload = s.payload) (hg : t.payGen = s.payGen) (i : Nat) :
    readPayload t i = readPayload s i := by
  rw [readPayload, readPayload, hm, hg]

/-- Settles O54. -/
theorem buffersAreOwned : Obligations.BuffersAreOwned := by
  intro s t h hr hw
  have hmove := step_transition h
  refine ⟨fun hc hrun => ?_, fun hc => ?_⟩
  · obtain ⟨hlen, hm, hg⟩ := (hmove.capture_owned hr hc hrun).2 hw
    exact ⟨hlen, readTrain_congr hm hg⟩
  · obtain ⟨hlen, hm, hg⟩ := (hmove.decode_owned hr hc).2 hw
    exact ⟨hlen, readPayload_congr hm hg⟩

end Sys2Proof.Machine
end

section
/-! PROOFS. The host port: commands, writes, reads and reset as single moves of the agenda (10_state.md rules R35 to R39). -/

namespace Sys2Proof.Machine

/-! ## Commands -/

/-- A table word that is a command decodes as one byte. -/
theorem decodeBytes_of_decodeTableWord {w : Nat} {i : Instr} (h : decodeTableWord 8 w = some i) :
    ∃ r, decodeBytes [fetchWord w] = .ok (i, r) := by
  unfold decodeTableWord at h
  split at h
  case isFalse => cases h
  case isTrue =>
    split at h
    next j r hd => cases h; exact ⟨r, hd⟩
    next => cases h

/-- Settles O6. -/
theorem stepRunsDecodedCommand : Obligations.StepRunsDecodedCommand := by
  refine ⟨fun s w i l hl hb hd => ?_, fun s w i hb hd => ?_⟩
  · rw [step_cons hl]
    exact commandWrite_runs hb hd
  · obtain ⟨r, hr⟩ := decodeBytes_of_decodeTableWord hd
    have hl : (s.withFetchWord 8 w).agenda = .command (fetchWord w) :: s.agenda := rfl
    rw [step_cons hl]
    exact commandWrite_runs hb hr

/-! ## Writes -/

/-- Settles O45. -/
theorem busyHostWriteRefused : Obligations.BusyHostWriteRefused := by
  intro s r l hl hb
  rw [step_cons hl]
  exact congrArg Host.Outcome.next (if_pos hb)

/-- A host write while BUSY = 0 is made on the register. -/
theorem step_write {s : State} {l : List Event} {r : HostWrite} (hl : s.agenda = .write r :: l) (hb : s.busy = false) :
    step s = .next (writeRegister r { s with agenda := l }) := by
  have hf : ¬ { s with agenda := l }.busy = true := by simp [hb]
  rw [step_cons hl]
  exact congrArg Host.Outcome.next (if_neg hf)

/-- CFG_IDLE_LIMIT takes every value but the reserved one (R21). -/
theorem writeRegister_cfgIdleLimit (v : Word) (s : State) :
    writeRegister (.cfgIdleLimit v) s = { s with cfgIdleLimit := if v.toNat = 2 ^ 32 - 1 then s.cfgIdleLimit else v } := by
  have hiff : v.toNat = 2 ^ 32 - 1 ↔ v = BitVec.allOnes 32 := by rw [← BitVec.toNat_inj, BitVec.toNat_allOnes]
  by_cases hv : v = BitVec.allOnes 32
  · rw [if_pos (hiff.2 hv)]
    exact if_pos hv
  · rw [if_neg (mt hiff.1 hv)]
    exact if_neg hv

/-- TRAIN_LEN takes a length within TRAIN (R25, R48). -/
theorem writeRegister_trainLen (n : Nat) (s : State) :
    writeRegister (.trainLen n) s = { s with trainLen := if n ≤ 256 then n else s.trainLen } := by
  by_cases h : n ≤ 256
  · rw [if_pos h]
    exact if_pos h
  · rw [if_neg h]
    exact if_neg h

/-- PAY_LEN takes a length within PAYLOAD (R25, R48). -/
theorem writeRegister_payLen (n : Nat) (s : State) :
    writeRegister (.payLen n) s = { s with payLen := if n ≤ 15 then n else s.payLen } := by
  by_cases h : n ≤ 15
  · rw [if_pos h]
    exact if_pos h
  · rw [if_neg h]
    exact if_neg h

/-- Settles O46. -/
theorem hostWritesLand : Obligations.HostWritesLand := by
  intro s l r hl hb
  have hs := step_write hl hb
  cases r with
  | cfgIdleLevel | cfgMinPulses | cfgCompUs | cfgStopRem | baud | x => exact hs
  | cfgIdleLimit v => rwa [writeRegister_cfgIdleLimit] at hs
  | trainLen n => rwa [writeRegister_trainLen] at hs
  | payLen n => rwa [writeRegister_payLen] at hs
  | trainEntry i p =>
    dsimp only
    split
    case isTrue hge => exact hs.trans (congrArg Host.Outcome.next (if_neg (not_lt.2 hge)))
    case isFalse hlt =>
      exact ⟨_, hs.trans (congrArg Host.Outcome.next (if_pos (not_le.1 hlt))), readTrain_writeTrain_same s i p,
        fun j hj => readTrain_writeTrain_other s p hj⟩
  | payByte i b =>
    dsimp only
    split
    case isTrue hge => exact hs.trans (congrArg Host.Outcome.next (if_neg (not_lt.2 hge)))
    case isFalse hlt =>
      exact ⟨_, hs.trans (congrArg Host.Outcome.next (if_pos (not_le.1 hlt))), readPayload_writePayload_same s i b,
        fun j hj => readPayload_writePayload_other s b hj⟩

/-! ## Reads -/

/-- The only reads that stop are of elements that do not exist (R41, R42). -/
theorem hostRead_fault {r : HostRead} {s : State} {i : Nat} (h : hostRead r s = .fault (.noSuchElement i)) :
    (r = .trainEntry i ∧ 256 ≤ i) ∨ (r = .payByte i ∧ 15 ≤ i) := by
  cases r
  case trainEntry j =>
    dsimp only [hostRead] at h
    split at h
    · cases h
    case isFalse hj => cases h; exact .inl ⟨rfl, not_lt.1 hj⟩
  case payByte j =>
    dsimp only [hostRead] at h
    split at h
    · cases h
    case isFalse hj => cases h; exact .inr ⟨rfl, not_lt.1 hj⟩
  all_goals cases h

/-- The read port shows a register of at most 33 bits at its value (R194). -/
theorem toNat_showValue {w : Nat} {v : BitVec w} {s t : State} (h : (.next (showValue v s) : Outcome) = .next t)
    (hw : w ≤ 33) : t.hostData.toNat = v.toNat := by
  cases h
  exact BitVec.toNat_setWidth_of_le hw

/-- With BUSY = 0 a buffer or its length is shown like any register. -/
theorem toNat_showBuffer {w : Nat} {v : BitVec w} {s t : State} (h : (.next (showBuffer v s) : Outcome) = .next t)
    (hb : s.busy = false) (hw : w ≤ 33) : t.hostData.toNat = v.toNat := by
  rw [showBuffer, if_neg (by simp [hb])] at h
  exact toNat_showValue h hw

/-- An entry as one number: the level above 32 bits of duration (R61). -/
theorem toNat_packPulse (p : Pulse) : (packPulse p).toNat = p.level.toNat * 2 ^ 32 + p.dur.toNat := by
  rw [packPulse, BitVec.toNat_append, ← Nat.shiftLeft_add_eq_or_of_lt p.dur.isLt, Nat.shiftLeft_eq]

/-- Settles O47. -/
theorem hostReadsShowRegisters : Obligations.HostReadsShowRegisters := by
  refine ⟨fun s r l hl => ?_, fun s r l t hl ht => ?_⟩
  · rw [step_cons hl]
    rcases hostRead_cases r { s with agenda := l } with ⟨d, k, h⟩ | ⟨i, h⟩
    · exact .inl ⟨d, k, h⟩
    · exact .inr ⟨i, h, hostRead_fault h⟩
  · have hread : ∀ {q}, r = q → hostRead q { s with agenda := l } = .next t := by
      rintro q rfl
      exact (step_cons hl).symm.trans ht
    refine ⟨?_, ?_, ?_, ?_, ?_, ?_, ?_, ?_, ?_,
      fun h => (toNat_showValue (hread h) (by decide)).trans (BitVec.toNat_ofBool s.busy), ?_, ?_, ?_,
      fun h => (toNat_showValue (hread h) (by decide)).trans (BitVec.toNat_ofBool s.decWarnLen), ?_, ?_, ?_, ?_,
      fun hb hlen h => (toNat_showBuffer (hread h) hb (by decide)).trans (Nat.mod_eq_of_lt (hlen.trans_lt (by decide))),
      fun hb hlen h => (toNat_showBuffer (hread h) hb (by decide)).trans (Nat.mod_eq_of_lt (hlen.trans_lt (by decide))),
      fun hb i h hi => toNat_showBuffer ((if_pos hi).symm.trans (hread h)) hb (by decide),
      fun hb i h hi => (toNat_showBuffer ((if_pos hi).symm.trans (hread h)) hb (by decide)).trans (toNat_packPulse _)⟩
    all_goals exact fun h => toNat_showValue (hread h) (by decide)

/-! ## Reset -/

/-- Settles O48. -/
theorem resetValues : Obligations.ResetValues := by
  intro s l hl
  refine ⟨_, step_cons hl, ?_⟩
  rintro r (rfl | rfl)
  all_goals exact ⟨rfl, idleLimit_toNat, rfl, rfl, rfl, rfl, rfl, rfl, rfl, rfl, rfl, rfl, rfl, rfl, rfl, rfl, rfl, rfl,
    rfl, rfl, rfl, rfl, rfl⟩

end Sys2Proof.Machine
end

section
/-! PROOFS. The buffers' contract and the operations issued twice (20_memory.md rules R44 to R55). -/

namespace Sys2Proof.Machine

/-! ## Reading back -/

/-- Settles O57. -/
theorem bufferReadAfterWrite : Obligations.BufferReadAfterWrite :=
  fun m i v hwf => ⟨Memory.wf_write i v hwf, Memory.read_write_same m i v, fun _ hj => Memory.read_write_other m v hj⟩

/-! ## Issuing a one-step command twice -/

/-- `u` shows the results of DECODE, SNAP, SELRATE and VALIDATE that `t` shows (R47). -/
structure ResultsKept (t u : State) : Prop where
  baud : u.baud = t.baud
  baudIdx : u.baudIdx = t.baudIdx
  payLen : u.payLen = t.payLen
  payload : u.payload = t.payload
  decResult : u.decResult = t.decResult
  decWarnLen : u.decWarnLen = t.decWarnLen
  chkResult : u.chkResult = t.chkResult
  chkCalc : u.chkCalc = t.chkCalc
  chkRecv : u.chkRecv = t.chkRecv

/-- A command completes and is accepted again: its operation finds this state. -/
def reissued (w : Byte) (s : State) : State := accept w (complete s)

/-- A one-step command is idempotent when its operation is; a refused one writes CMD_ERR twice (R79, R83). -/
theorem issueOneStep_twice {i : Instr} {body : State → State} (hcmd : ∀ s, (body s).cmdErr = s.cmdErr)
    (hbody : ∀ s w, ResultsKept (body s) (body (reissued w (body s)))) {s : State} (hb : s.busy = false) :
    ∃ t u, issueOneStep i body s = .next t ∧ issueOneStep i body t = .next u ∧
      ResultsKept t u ∧ u.cmdErr = t.cmdErr ∧ u.busy = false := by
  cases ha : argumentLegal i with
  | false => exact ⟨_, _, issue_badArgument hb ha, issue_badArgument hb ha, by constructor <;> rfl, rfl, hb⟩
  | true =>
    refine ⟨_, _, issue_accept hb ha, issue_accept rfl ha, { hbody (accept (commandWord i) s) (commandWord i) with }, ?_, rfl⟩
    simp [hcmd]

/-- Selecting the same entry again writes the same rate (R134). -/
theorem selectRate_again (n : Nat) (s : State) (w : Byte) :
    ResultsKept (selectRate n s) (selectRate n (reissued w (selectRate n s))) := by
  constructor <;> rfl

/-- SNAP leaves its operand, X, so it selects the same entry again (R131). -/
theorem snapRate_again (s : State) (w : Byte) : ResultsKept (snapRate s) (snapRate (reissued w (snapRate s))) := by
  have hx : (reissued w (snapRate s)).x = s.x := by simp [reissued, snapRate]
  have hsame : snapRate (reissued w (snapRate s)) = selectRate (nearestIdx s.x.toNat) (reissued w (snapRate s)) := by
    rw [snapRate, hx]
  rw [hsame]
  exact selectRate_again (nearestIdx s.x.toNat) s w

/-! ## VALIDATE reads only the payload -/

/-- VALIDATE of an empty payload (R158). -/
theorem validatePayload_empty {s : State} (h : s.payLen = 0) :
    validatePayload s = { s with chkResult := .empty, chkCalc := 0, chkRecv := 0 } := if_pos h

/-- VALIDATE of any other payload (R156, R157). -/
theorem validatePayload_compare {s : State} (h : s.payLen ≠ 0) :
    validatePayload s =
      { s with
        chkCalc := checksum (payloadBytes s)
        chkRecv := readPayload s (s.payLen - 1)
        chkResult := if checksum (payloadBytes s) = readPayload s (s.payLen - 1) then .matched else .mismatch } := by
  refine (if_neg h).trans ?_
  unfold compareChecksum
  dsimp only
  split
  all_goals rfl

/-- VALIDATE leaves its operand, the payload, so the second pass finds what the first found (R155). -/
theorem validatePayload_again (s : State) (w : Byte) :
    ResultsKept (validatePayload s) (validatePayload (reissued w (validatePayload s))) := by
  have hlen : (reissued w (validatePayload s)).payLen = s.payLen := by simp [reissued]
  have hread : readPayload (reissued w (validatePayload s)) = readPayload s :=
    funext (readPayload_congr (by simp [reissued]) (by simp [reissued]))
  have hbytes : payloadBytes (reissued w (validatePayload s)) = payloadBytes s := by
    rw [payloadBytes, payloadBytes, hlen, hread]
  by_cases h : s.payLen = 0
  · rw [validatePayload_empty (hlen.trans h), validatePayload_empty h]
    constructor <;> rfl
  · rw [validatePayload_compare (hlen.trans_ne h), hbytes, hread, hlen, validatePayload_compare h]
    constructor <;> rfl

/-! ## DECODE reads only the train and CFG_STOP_REM -/

/-- `t` holds what DECODE reads of `s` (R111 to R113). -/
structure SameTrain (s t : State) : Prop where
  train : t.train = s.train
  trainGen : t.trainGen = s.trainGen
  trainLen : t.trainLen = s.trainLen
  stopRem : t.cfgStopRem = s.cfgStopRem

theorem SameTrain.remDur {s t : State} (h : SameTrain s t) : remDur t = remDur s := by
  funext i
  rw [Machine.remDur, Machine.remDur, readTrain_congr h.train h.trainGen]

theorem SameTrain.remainingLen {s t : State} (h : SameTrain s t) : remainingLen t = remainingLen s := by
  rw [Machine.remainingLen, Machine.remainingLen, h.trainLen]

theorem SameTrain.analysedLen {s t : State} (h : SameTrain s t) : analysedLen t = analysedLen s := by
  rw [Machine.analysedLen, Machine.analysedLen, h.remainingLen]

theorem SameTrain.markSum {s t : State} (h : SameTrain s t) : markSum t = markSum s := by
  rw [Machine.markSum, Machine.markSum, h.analysedLen, h.remDur]

theorem SameTrain.frameLengthWrong {s t : State} (h : SameTrain s t) : frameLengthWrong t = frameLengthWrong s := by
  rw [Machine.frameLengthWrong, Machine.frameLengthWrong, h.remainingLen, h.stopRem]

theorem SameTrain.decodedBytes {s t : State} (h : SameTrain s t) (a : Arith) : decodedBytes a t = decodedBytes a s := by
  have hgroup : groupByte a t = groupByte a s := by
    funext g
    rw [groupByte, groupByte, h.analysedLen, h.markSum, h.remDur]
  rw [Machine.decodedBytes, Machine.decodedBytes, h.analysedLen, hgroup]

/-- A successful DECODE selects the same rate and stores the same bytes for the same train (R119, R121). -/
theorem SameTrain.storeDecoded {s t : State} (h : SameTrain s t) (a : Arith) :
    (storeDecoded a t).baud = (storeDecoded a s).baud ∧ (storeDecoded a t).baudIdx = (storeDecoded a s).baudIdx ∧
    (storeDecoded a t).payLen = (storeDecoded a s).payLen ∧ (storeDecoded a t).payload = (storeDecoded a s).payload := by
  simp [Machine.storeDecoded, h.decodedBytes, h.analysedLen, h.markSum]

/-- A successful DECODE reports OK and leaves its warning and the checksum registers as they are. -/
@[simp] theorem storeDecoded_keeps (a : Arith) (s : State) :
    (storeDecoded a s).decResult = .ok ∧ (storeDecoded a s).decWarnLen = s.decWarnLen ∧
    (storeDecoded a s).chkResult = s.chkResult ∧ (storeDecoded a s).chkCalc = s.chkCalc ∧
    (storeDecoded a s).chkRecv = s.chkRecv := by
  simp [storeDecoded]

/-- DECODE leaves its operand, the train, so the second pass takes the branch of the first and finds the same (R110). -/
theorem decodeTrain_again (a : Arith) (s : State) (w : Byte) :
    ResultsKept (decodeTrain a s) (decodeTrain a (reissued w (decodeTrain a s))) := by
  have same : SameTrain s (reissued w (decodeTrain a s)) := by constructor <;> simp [reissued]
  by_cases hn : analysedLen s = 0
  · rw [decodeTrain_noGroup (same.analysedLen.trans hn), same.frameLengthWrong, decodeTrain_noGroup hn]
    constructor <;> rfl
  have hn' := same.analysedLen.trans_ne hn
  have hzero : thresholdZero a (analysedLen (reissued w (decodeTrain a s))) (markSum (reissued w (decodeTrain a s))) =
      thresholdZero a (analysedLen s) (markSum s) := by rw [same.analysedLen, same.markSum]
  cases hz : thresholdZero a (analysedLen s) (markSum s) with
  | true =>
    rw [decodeTrain_zeroThreshold hn' (hzero.trans hz), same.frameLengthWrong, decodeTrain_zeroThreshold hn hz]
    constructor <;> rfl
  | false =>
    have stored : SameTrain { s with decWarnLen := frameLengthWrong s }
        { reissued w (decodeTrain a s) with decWarnLen := frameLengthWrong s } := { same with }
    rw [decodeTrain_ok hn' (hzero.trans hz), same.frameLengthWrong]
    rw [decodeTrain_ok hn hz] at stored ⊢
    obtain ⟨hbaud, hidx, hlen, hpay⟩ := stored.storeDecoded a
    refine ⟨hbaud, hidx, hlen, hpay, ?_, ?_, ?_, ?_, ?_⟩
    all_goals simp [reissued]

/-- Settles O56: each of the four operations leaves its own operand. -/
theorem oneStepOperationsAreIdempotent : Obligations.OneStepOperationsAreIdempotent := by
  intro s i hb hi
  have twice : ∃ t u, exec i s = .next t ∧ exec i t = .next u ∧ ResultsKept t u ∧ u.cmdErr = t.cmdErr ∧ u.busy = false := by
    rcases hi with rfl | rfl | ⟨idx, rfl⟩ | rfl
    · exact issueOneStep_twice (by simp) (decodeTrain_again Config.arith) hb
    · exact issueOneStep_twice (by simp [snapRate]) snapRate_again hb
    · exact issueOneStep_twice (by simp) (selectRate_again idx.toNat) hb
    · exact issueOneStep_twice (by simp) validatePayload_again hb
  obtain ⟨t, u, hfirst, hsecond, kept, herr, hfree⟩ := twice
  exact ⟨t, u, hfirst, hsecond, kept.baud, kept.baudIdx, kept.payLen, kept.payload, kept.decResult, kept.decWarnLen,
    kept.chkResult, kept.chkCalc, kept.chkRecv, herr, hfree⟩

end Sys2Proof.Machine
end

section
/-! PROOFS. The two formats: command words decode to their commands and back, and the line frame of a payload is read back
and measured (30_encoding.md rules R65, R66, R71, R76 to R79, R84). -/

namespace Sys2Proof

/-! ## Command words -/

@[simp] theorem opcodeField_commandOf (op arg : Nibble) : opcodeField (commandOf op arg) = op :=
  BitVec.extractLsb'_append_eq_left

@[simp] theorem argumentField_commandOf (op arg : Nibble) : argumentField (commandOf op arg) = arg :=
  BitVec.extractLsb'_append_eq_right

/-- A row without an argument reads the word whose argument is 0 (R77). -/
@[simp] theorem noArgument_commandOf_zero (i : Instr) (op : Nibble) : noArgument i (commandOf op 0#4) = .ok i := by
  simp [noArgument]

/-- A command's word decodes to the command, whatever its argument (R77, R78). -/
theorem decodeCmd_of_encodeCmd {i : Instr} {w : Byte} (h : encodeCmd i = some w) : decodeCmd w = .ok i := by
  cases i with
  | lineStart | lineBit0 | lineBit1 | lineStop => cases h
  | capture | decode | snap | selrate | encode | validate => cases h; simp [decodeCmd]

/-- Decoding and encoding a command word say the same. -/
theorem decodeCmd_eq_ok_iff {i : Instr} {w : Byte} : decodeCmd w = .ok i ↔ encodeCmd i = some w :=
  ⟨Machine.encodeCmd_of_decodeCmd, decodeCmd_of_encodeCmd⟩

/-- A run of bytes decodes when its first byte is a command's word; the others are left over (R76). -/
theorem decodeBytes_cons_eq_ok_iff {w : Byte} {rest r : List Byte} {i : Instr} :
    decodeBytes (w :: rest) = .ok (i, r) ↔ encodeCmd i = some w ∧ r = rest := by
  rw [← decodeCmd_eq_ok_iff, decodeBytes]
  cases decodeCmd w <;> simp [Except.map, eq_comm]

/-- One byte decodes to exactly the command whose word it is. -/
theorem decodeBytes_one_iff {w : Byte} {i : Instr} : decodeBytes [w] = .ok (i, []) ↔ encodeCmd i = some w := by
  simp [decodeBytes_cons_eq_ok_iff]

/-- Settles O3: decoding inverts encoding on every row, and the fields of a word make the word. -/
theorem commandWordsRoundTrip : Obligations.CommandWordsRoundTrip :=
  ⟨fun _ _ h _ => decodeBytes_cons_eq_ok_iff.2 ⟨h, rfl⟩, fun _ _ _ _ h => decodeBytes_cons_eq_ok_iff.1 h⟩

/-- A word with the opcode of SELRATE has it under the row's mask, and the operand is the argument field (R77, R78). -/
theorem encodeCmd_selrate_iff (idx : Nibble) (w : Byte) :
    encodeCmd (.selrate idx) = some w ↔ w &&& 0xF0 = 0x40 ∧ idx.toNat = w.toNat % 16 := by
  revert idx w
  decide

/-- Settles O1: a byte decodes to the command whose word it is; a full mask leaves the word, SELRATE's leaves its opcode. -/
theorem opcodeMapByMaskAndMatch : Obligations.OpcodeMapByMaskAndMatch := by
  intro w
  have full : w &&& 0xFF = w := BitVec.and_allOnes
  have row : ∀ (i : Instr) (m : Byte), encodeCmd i = some m → (decodeBytes [w] = .ok (i, []) ↔ w &&& 0xFF = m) := by
    intro i m hm
    rw [decodeBytes_one_iff, hm, full, Option.some_inj, eq_comm]
  exact ⟨row .capture 0x10 rfl, row .decode 0x20 rfl, row .snap 0x30 rfl,
    fun idx => decodeBytes_one_iff.trans (encodeCmd_selrate_iff idx w), row .encode 0x50 rfl, row .validate 0x60 rfl⟩

/-- Settles O2: four words are their commands' words, and two fall under no row. -/
theorem sampleCommandWordsDecode : Obligations.SampleCommandWordsDecode :=
  ⟨decodeBytes_one_iff.2 rfl, decodeBytes_one_iff.2 rfl, decodeBytes_one_iff.2 rfl, decodeBytes_one_iff.2 rfl, rfl, rfl⟩

/-! ## The data bits of a payload -/

@[simp] theorem length_byteBits (b : Byte) : (byteBits b).length = 8 := by simp [byteBits]

/-- The bits on the line determine the byte (R71). -/
theorem byteBits_injective : Function.Injective byteBits := by
  intro a b h
  refine BitVec.eq_of_getLsbD_eq fun k hk => ?_
  exact List.map_inj_left.1 h k (List.mem_range.2 hk)

theorem payloadBits_cons (b : Byte) (p : List Byte) : payloadBits (b :: p) = byteBits b ++ payloadBits p :=
  List.flatMap_cons

@[simp] theorem length_payloadBits (p : List Byte) : (payloadBits p).length = 8 * p.length := by
  simp [payloadBits, List.length_flatMap, mul_comm]

/-- The data bits determine the payload: each byte is its own eight of them (R68, R71). -/
theorem payloadBits_injective : Function.Injective payloadBits := by
  intro p q h
  induction p generalizing q with
  | nil =>
    cases q with
    | nil => rfl
    | cons b q => simpa using congrArg List.length h
  | cons a p ih =>
    cases q with
    | nil => simpa using congrArg List.length h
    | cons b q =>
      rw [payloadBits_cons, payloadBits_cons] at h
      obtain ⟨hbyte, hrest⟩ := List.append_inj h (by simp)
      rw [byteBits_injective hbyte, ih hrest]

/-! ## The carrier pattern of a frame -/

/-- The data symbols and the closing STOP of a frame. -/
def frameTail (bits : List Bool) : List Instr := bits.map bitSymbol ++ [.lineStop]

theorem frameSymbols_eq (p : List Byte) : frameSymbols p = .lineStart :: frameTail (payloadBits p) := rfl

theorem frameTail_cons (b : Bool) (bits : List Bool) : frameTail (b :: bits) = bitSymbol b :: frameTail bits := rfl

@[simp] theorem symbolsPattern_cons (i : Instr) (l : List Instr) :
    symbolsPattern (i :: l) = linePattern i ++ symbolsPattern l := List.flatMap_cons

/-- Every data symbol, and STOP, begins with carrier on (R65). -/
theorem symbolsPattern_frameTail_head (bits : List Bool) : ∃ r, symbolsPattern (frameTail bits) = true :: r := by
  cases bits with
  | nil => exact ⟨_, rfl⟩
  | cons b bits => cases b <;> exact ⟨_, rfl⟩

/-- A data symbol is read by its pattern when the next symbol begins after it (R65). -/
theorem parseSymbols_bit (b : Bool) (r : List Bool) :
    parseSymbols (linePattern (bitSymbol b) ++ true :: r) = (parseSymbols (true :: r)).map (bitSymbol b :: ·) := by
  cases b <;> rfl

/-- The data symbols and STOP are read back, symbol by symbol. -/
theorem parseSymbols_frameTail (bits : List Bool) :
    parseSymbols (symbolsPattern (frameTail bits)) = some (frameTail bits) := by
  induction bits with
  | nil => rfl
  | cons b bits ih =>
    obtain ⟨r, hr⟩ := symbolsPattern_frameTail_head bits
    rw [frameTail_cons, symbolsPattern_cons, hr, parseSymbols_bit, ← hr, ih, Option.map_some]

/-- A frame is read back from its pattern. -/
theorem parseFrame_frameSymbols (p : List Byte) : parseFrame (symbolsPattern (frameSymbols p)) = some (frameSymbols p) := by
  have hstart : (linePattern .lineStart).length = 11 := rfl
  rw [frameSymbols_eq, symbolsPattern_cons, parseFrame, ← hstart, List.take_left, List.drop_left, if_pos rfl,
    parseSymbols_frameTail, Option.map_some]

theorem bitSymbol_injective : Function.Injective bitSymbol := by decide

/-- The symbols of a frame determine the payload. -/
theorem frameSymbols_injective : Function.Injective frameSymbols := by
  intro p q h
  have htail : frameTail (payloadBits p) = frameTail (payloadBits q) := List.tail_eq_of_cons_eq h
  exact payloadBits_injective (bitSymbol_injective.list_map (List.append_cancel_right htail))

/-- Settles O4: the parser answers the frame's symbols, and these determine the payload. -/
theorem framePatternReadsBack : Obligations.FramePatternReadsBack := by
  refine ⟨parseFrame_frameSymbols, fun p q h => frameSymbols_injective (Option.some_inj.1 ?_)⟩
  rw [← parseFrame_frameSymbols p, h, parseFrame_frameSymbols]

/-! ## The length of a frame -/

/-- A data symbol lasts 2 periods for a 0 and 4 for a 1 (R65). -/
theorem length_symbolsPattern_frameTail (bits : List Bool) :
    (symbolsPattern (frameTail bits)).length = 2 * bits.length + 2 * bits.count true + 2 := by
  induction bits with
  | nil => rfl
  | cons b bits ih =>
    rw [frameTail_cons, symbolsPattern_cons, List.length_append, ih]
    cases b <;> simp [linePattern, bitSymbol, markPeriods, spacePeriods] <;> omega

/-- Every line symbol is a mark and then a space (R65). -/
theorem linePattern_mark_space {i : Instr} (h : i.isCommand = false) :
    ∃ m k, 0 < m ∧ 0 < k ∧ linePattern i = List.replicate m true ++ List.replicate k false := by
  refine ⟨markPeriods i, spacePeriods i, ?_, ?_, rfl⟩
  all_goals cases i <;> simp_all [Instr.isCommand, markPeriods, spacePeriods]

theorem isCommand_bitSymbol (b : Bool) : (bitSymbol b).isCommand = false := by cases b <;> rfl

/-- A frame is made of line symbols. -/
theorem isCommand_of_mem_frameSymbols {i : Instr} {p : List Byte} (h : i ∈ frameSymbols p) : i.isCommand = false := by
  simp only [frameSymbols, List.mem_cons, List.mem_append, List.mem_map, List.not_mem_nil, or_false] at h
  rcases h with rfl | ⟨b, -, rfl⟩ | rfl
  · rfl
  · exact isCommand_bitSymbol b
  · rfl

/-- Settles O5: 11 periods of START, 2 or 4 of each data bit, 2 of STOP. -/
theorem frameLengthInPeriods : Obligations.FrameLengthInPeriods := by
  intro p
  refine ⟨by simp [frameSymbols], fun i hi => linePattern_mark_space (isCommand_of_mem_frameSymbols hi), ?_⟩
  have hstart : (linePattern .lineStart).length = 11 := rfl
  rw [frameSymbols_eq, symbolsPattern_cons, List.length_append, length_symbolsPattern_frameTail, hstart,
    length_payloadBits, Machine.onesCount]
  omega

end Sys2Proof
end

section
/-! PROOFS. What a word written to CMD does: lost, illegal, reserved or accepted (30_encoding.md rules R79, R83). -/

namespace Sys2Proof.Machine

/-! ## The fields of a word -/

theorem toNat_opcodeField (w : Byte) : (opcodeField w).toNat = w.toNat / 16 := by
  have h := w.isLt
  rw [opcodeField, BitVec.extractLsb'_toNat, Nat.shiftRight_eq_div_pow]
  omega

theorem toNat_argumentField (w : Byte) : (argumentField w).toNat = w.toNat % 16 := by
  rw [argumentField, BitVec.extractLsb'_toNat, Nat.shiftRight_zero]

/-- The words of commands: opcodes 1, 2, 3, 5 and 6 with the argument 0, and opcode 4 (R77, R79). -/
theorem fields_of_encodeCmd {w : Byte} {i : Instr} (h : encodeCmd i = some w) :
    w.toNat / 16 ∈ [1, 2, 3, 5, 6] ∧ w.toNat % 16 = 0 ∨ w.toNat / 16 = 4 := by
  cases i with
  | lineStart | lineBit0 | lineBit1 | lineStop => cases h
  | selrate idx =>
    cases h
    rw [← toNat_opcodeField, opcodeField_commandOf]
    exact .inr rfl
  | capture | decode | snap | encode | validate => cases h; decide

/-! ## Writing the word -/

/-- A word written while BUSY = 1 is lost. -/
theorem commandWrite_busy {w : Byte} {s : State} (hb : s.busy = true) :
    commandWrite w s = .next { s with cmdErr := .rejectedBusy } := if_pos hb

/-- A word that is no command's is refused (R79). -/
theorem commandWrite_illegal {w : Byte} {s : State} (hb : s.busy = false) (h : ∀ i, encodeCmd i ≠ some w) :
    commandWrite w s = .next { s with cmdErr := .illegal } := by
  have hd : ∃ e, decodeBytes [w] = .error e := by
    cases hd : decodeBytes [w] with
    | error e => exact ⟨e, rfl⟩
    | ok q => exact absurd (decodeBytes_cons_eq_ok_iff.1 hd).1 (h q.1)
  obtain ⟨e, hd⟩ := hd
  simp [commandWrite, hb, hd]

/-- A word with the opcode of SELRATE is SELRATE's, its operand the argument field (R78). -/
theorem encodeCmd_selrate_argumentField {w : Byte} (h : w.toNat / 16 = 4) :
    encodeCmd (.selrate (argumentField w)) = some w := by
  have hop : opcodeField w = 0x4 := BitVec.eq_of_toNat_eq ((toNat_opcodeField w).trans h)
  rw [encodeCmd, ← hop, commandOf_fields]

/-- SELRATE with a reserved index is refused at issue (R79, R135). -/
theorem exec_selrate_reserved {idx : Nibble} {s : State} (hb : s.busy = false) (h : 13 ≤ idx.toNat) :
    exec (.selrate idx) s = .next { s with cmdErr := .badArg } := by
  have hlegal : argumentLegal (.selrate idx) = false := decide_eq_false (not_lt.2 h)
  exact issue_badArgument (body := fun u => complete (selectRate idx.toNat u)) hb hlegal

/-- Settles O8: no command has such a word, and SELRATE's reserved words are refused at issue. -/
theorem illegalAndReservedWords : Obligations.IllegalAndReservedWords := by
  intro s w l hl hb
  have hfree : { s with agenda := l }.busy = false := hb
  have illegal : (¬ ((w.toNat / 16 ∈ [1, 2, 3, 5, 6] ∧ w.toNat % 16 = 0) ∨ w.toNat / 16 = 4)) →
      step s = .next { s with agenda := l, cmdErr := .illegal } := fun hno =>
    (step_cons hl).trans (commandWrite_illegal hfree fun _ hi => hno (fields_of_encodeCmd hi))
  simp only [List.mem_cons, List.not_mem_nil, or_false] at illegal ⊢
  refine ⟨fun hop => illegal (by omega), fun hop harg => illegal (by omega), fun hop harg => ?_⟩
  have hres : 13 ≤ (argumentField w).toNat := harg.trans_eq (toNat_argumentField w).symm
  have hdec := decodeBytes_one_iff.2 (encodeCmd_selrate_argumentField hop)
  exact (step_cons hl).trans ((commandWrite_runs hfree hdec).trans (exec_selrate_reserved hfree hres))

/-! ## Acceptance -/

/-- What the step that accepts the word `w` of the command `i` leaves of acceptance (R83, R126). -/
structure Accepted (i : Instr) (w : Byte) (t : State) : Prop where
  cmdErr : t.cmdErr = .accepted
  opActive : t.opActive.toNat = w.toNat / 16
  /-- CAPTURE is then at work. -/
  running : i = .capture → t.busy = true
  /-- DECODE, SNAP, SELRATE and VALIDATE have completed; ENCODE may have, by its conditions (R144). -/
  completed : i ≠ .capture → i ≠ .encode → t.busy = false

/-- A well-formed command executed while BUSY = 0 is accepted: its body leaves what acceptance set. -/
theorem exec_accepts {i : Instr} {w : Byte} {s : State} (hb : s.busy = false) (hwf : i.wellFormed = true)
    (hw : encodeCmd i = some w) : ∃ t, exec i s = .next t ∧ Accepted i w t := by
  have hword : commandWord i = w := by simp [commandWord, hw]
  have runs : ∀ body : State → State, exec i s = issue i body s →
      (∀ u, (body u).cmdErr = u.cmdErr ∧ (body u).opActive = u.opActive) →
      (i = .capture → (body (accept w s)).busy = true) →
      (i ≠ .capture → i ≠ .encode → (body (accept w s)).busy = false) →
      ∃ t, exec i s = .next t ∧ Accepted i w t := by
    intro body hexec hkeep hrunning hcompleted
    obtain ⟨herr, hop⟩ := hkeep (accept w s)
    refine ⟨body (accept w s), ?_, herr, ?_, hrunning, hcompleted⟩
    · rw [hexec, issue_accept hb ((argumentLegal_eq_wellFormed i).trans hwf), hword]
    · rw [hop, accept_opActive, toNat_opcodeField]
  cases i with
  | lineStart | lineBit0 | lineBit1 | lineStop => cases hw
  | capture => exact runs captureStart rfl (fun _ => ⟨rfl, rfl⟩) (fun _ => rfl) fun h => absurd rfl h
  | encode => exact runs encodeStart rfl (fun _ => by simp) nofun fun _ h => absurd rfl h
  | decode =>
    exact runs (fun u => complete (decodeTrain Config.arith u)) rfl (fun _ => by simp) nofun fun _ _ => complete_busy _
  | snap =>
    exact runs (fun u => complete (snapRate u)) rfl (fun _ => by simp [snapRate]) nofun fun _ _ => complete_busy _
  | selrate idx =>
    exact runs (fun u => complete (selectRate idx.toNat u)) rfl (fun _ => by simp) nofun fun _ _ => complete_busy _
  | validate =>
    exact runs (fun u => complete (validatePayload u)) rfl (fun _ => by simp) nofun fun _ _ => complete_busy _

/-- Settles O7: a word that decodes is its command's own, and that command is accepted. -/
theorem acceptanceAndCompletion : Obligations.AcceptanceAndCompletion := by
  intro s w l hl
  refine ⟨fun hb => (step_cons hl).trans (commandWrite_busy hb), fun hb i hd hwf => ?_⟩
  have hfree : { s with agenda := l }.busy = false := hb
  obtain ⟨t, ht, hacc⟩ := exec_accepts hfree hwf (decodeBytes_one_iff.1 hd)
  refine ⟨t, ?_, hacc.cmdErr, hacc.opActive, ?_, hacc.running⟩
  · exact (step_cons hl).trans ((commandWrite_runs hfree hd).trans ht)
  · rintro (rfl | rfl | ⟨idx, rfl⟩ | rfl) <;> exact hacc.completed nofun nofun

end Sys2Proof.Machine
end

section
/-! PROOFS. The events of line symbols: a frame's event list is that of its symbols, one after the other (30_encoding.md rule
R65, 43_encode.md rules R141, R145). -/

namespace Sys2Proof.Machine

/-- The mark and the space of a line symbol at the period `P` (R65, R141). -/
def symbolEvents (P : Rat) (i : Instr) : List Emission :=
  [{ kind := .carrier, dur := (markPeriods i : Rat) * P }, { kind := .gap, dur := (spacePeriods i : Rat) * P }]

/-- A symbol appends its events to OUT and changes nothing else. -/
theorem emitSymbol_eq (i : Instr) (s : State) : emitSymbol i s = { s with out := s.out ++ symbolEvents s.encPeriod i } := by
  simp [emitSymbol, emitMark, emitSpace, emit, symbolEvents]

theorem symbolEvents_lineStart (P : Rat) :
    symbolEvents P .lineStart = [{ kind := .carrier, dur := 8 * P }, { kind := .gap, dur := 3 * P }] := by
  simp [symbolEvents, markPeriods, spacePeriods]

theorem symbolEvents_lineStop (P : Rat) :
    symbolEvents P .lineStop = [{ kind := .carrier, dur := P }, { kind := .gap, dur := P }] := by
  simp [symbolEvents, markPeriods, spacePeriods]

theorem symbolEvents_bitSymbol (P : Rat) (b : Bool) : symbolEvents P (bitSymbol b) = bitEvents P b := by
  cases b <;> simp [symbolEvents, bitSymbol, bitEvents, markPeriods, spacePeriods]

/-- The event list of a payload is that of its frame's symbols (R66, R145). -/
theorem frameEvents_eq (P : Rat) (p : List Byte) : frameEvents P p = (frameSymbols p).flatMap (symbolEvents P) := by
  simp [frameEvents, frameSymbols, symbolEvents_lineStart, symbolEvents_lineStop, List.flatMap_map,
    symbolEvents_bitSymbol]

/-- A line symbol emits itself. -/
theorem exec_symbol {i : Instr} (h : i.isCommand = false) (s : State) :
    exec i s = .next { s with out := s.out ++ symbolEvents s.encPeriod i } := by
  rw [← emitSymbol_eq]
  cases i with
  | capture | decode | snap | selrate | encode | validate => cases h
  | lineStart | lineBit0 | lineBit1 | lineStop => rfl

/-- Line symbols executed one after the other append their events in order. -/
theorem execAll_symbols {l : List Instr} (h : ∀ i ∈ l, i.isCommand = false) (s : State) :
    execAll l s = { s with out := s.out ++ l.flatMap (symbolEvents s.encPeriod) } := by
  induction l generalizing s with
  | nil => simp [execAll]
  | cons i l ih =>
    obtain ⟨hi, hl⟩ := List.forall_mem_cons.1 h
    rw [execAll, exec_symbol hi, outcomeState, ih hl, List.flatMap_cons, List.append_assoc]

/-- Settles O38: the frame consists of line symbols, and its event list is theirs. -/
theorem frameSymbolsEmitTheFrame : Obligations.FrameSymbolsEmitTheFrame := by
  intro s p
  rw [execAll_symbols (fun _ => isCommand_of_mem_frameSymbols), frameEvents_eq]

/-- Settles O37. -/
theorem lineSymbolsEmitMarkAndSpace : Obligations.LineSymbolsEmitMarkAndSpace := by
  intro s
  have emits : ∀ i l, i.isCommand = false → symbolEvents s.encPeriod i = l →
      exec i s = .next { s with out := s.out ++ l } := by
    rintro i _ hi rfl
    exact exec_symbol hi s
  exact ⟨emits .lineStart _ rfl (symbolEvents_lineStart _), emits .lineBit0 _ rfl (symbolEvents_bitSymbol _ false),
    emits .lineBit1 _ rfl (symbolEvents_bitSymbol _ true), emits .lineStop _ rfl (symbolEvents_lineStop _)⟩

end Sys2Proof.Machine
end

section
/-! PROOFS. Runs of several steps: one after another. -/

namespace Sys2Proof.Machine

/-- A run begins with one step. -/
theorem runSteps_succ {k : Nat} {s t : State} (h : step s = .next t) : runSteps (k + 1) s = runSteps k t := by
  have hcore : Host.Core.step core s = .next t := h
  simp only [runSteps, Host.Core.run, hcore]
  rfl

/-- A run of one step. -/
theorem runSteps_one {s t : State} (h : step s = .next t) : runSteps 1 s = .next t := runSteps_succ h

/-- A run that answers a next state answered one after its first step. -/
theorem step_of_runSteps_succ {k : Nat} {s t : State} (h : runSteps (k + 1) s = .next t) :
    ∃ u, step s = .next u ∧ runSteps k u = .next t := by
  simp only [runSteps, Host.Core.run] at h
  split at h
  next u hu => exact ⟨u, hu, h⟩
  all_goals cases h

/-- A run goes on from where its first part leads. -/
theorem runSteps_add {m n : Nat} {s t : State} (h : runSteps m s = .next t) : runSteps (m + n) s = runSteps n t := by
  induction m generalizing s with
  | zero =>
    cases h
    rw [Nat.zero_add]
  | succ m ih =>
    obtain ⟨u, hu, hrest⟩ := step_of_runSteps_succ h
    rw [Nat.add_right_comm, runSteps_succ hu, ih hrest]

end Sys2Proof.Machine
end

section
/-! PROOFS. A capture records the intervals of its line, and ends after the idle run (40_capture.md rules R93 to R102). -/

namespace Sys2Proof.Machine

/-! ## The record of a list of intervals -/

/-- The entries of intervals with these lengths, the first ending at level `v` (R94, R100). -/
def intervalEntries (v : Bit) : List Nat → List Pulse
  | [] => []
  | d :: ds => { level := v, dur := BitVec.ofNat 32 (min d (2 ^ 32 - 1)) } :: intervalEntries (1 - v) ds

@[simp] theorem length_intervalEntries (v : Bit) (ds : List Nat) : (intervalEntries v ds).length = ds.length := by
  induction ds generalizing v with
  | nil => rfl
  | cons d ds ih => simp [intervalEntries, ih]

/-- The level of the `n`-th entry when the first has level `v`. -/
def levelAt (v : Bit) (n : Nat) : Bit := if n % 2 = 0 then v else 1 - v

/-- The levels alternate. -/
theorem levelAt_succ (v : Bit) (n : Nat) : levelAt v (n + 1) = 1 - levelAt v n := by
  rcases Nat.mod_two_eq_zero_or_one n with h | h
  · rw [levelAt, levelAt, if_neg (by omega), if_pos h]
  · rw [levelAt, levelAt, if_pos (by omega), if_neg (by omega), sub_sub_cancel]

theorem levelAt_one_sub (v : Bit) (n : Nat) : levelAt (1 - v) n = levelAt v (n + 1) := by
  rw [levelAt_succ, levelAt, levelAt]
  split
  all_goals rfl

/-- The same entries with each level by its index, from index `n` on. -/
theorem intervalEntries_eq_map_zipIdx (v : Bit) (ds : List Nat) (n : Nat) :
    (ds.zipIdx n).map (fun e => { level := levelAt v e.2, dur := BitVec.ofNat 32 (min e.1 (2 ^ 32 - 1)) }) =
      intervalEntries (levelAt v n) ds := by
  induction ds generalizing n with
  | nil => rfl
  | cons d ds ih => rw [List.zipIdx_cons, List.map_cons, ih, levelAt_succ, intervalEntries]

/-- A train with one entry written behind it. -/
theorem HoldsTrain.snoc {s t : State} {l : List Pulse} {p : Pulse} (h : HoldsTrain s l) (hlen : t.trainLen = s.trainLen + 1)
    (hnew : readTrain t s.trainLen = p) (hold : ∀ i < s.trainLen, readTrain t i = readTrain s i) :
    HoldsTrain t (l ++ [p]) := by
  obtain ⟨hl, hentries⟩ := h
  refine ⟨by simp [hlen, hl], fun i hi => ?_⟩
  have hi' : i < l.length ∨ i = s.trainLen := by
    rw [List.length_append, List.length_singleton] at hi
    omega
  rcases hi' with hlt | rfl
  · rw [hold i (hl ▸ hlt), hentries i hlt, List.getElem_append_left hlt]
  · simpa [← hl] using hnew

/-! ## Edges -/

theorem SameConfig.refl (s : State) : SameConfig s s := ⟨rfl, rfl, rfl, rfl, rfl, rfl⟩

theorem SameConfig.idleLimit {s t : State} (h : SameConfig s t) : t.cfgIdleLimit = s.cfgIdleLimit := h.2.1

theorem SameConfig.trans {s t u : State} (h : SameConfig s t) (h' : SameConfig t u) : SameConfig s u := by
  obtain ⟨hlevel, hlimit, hmin, hcomp, hrem, hx⟩ := h
  obtain ⟨hlevel', hlimit', hmin', hcomp', hrem', hx'⟩ := h'
  exact ⟨hlevel'.trans hlevel, hlimit'.trans hlimit, hmin'.trans hmin, hcomp'.trans hcomp, hrem'.trans hrem, hx'.trans hx⟩

/-- A capture in its run whose line has just left `v`, so that the next edge goes to `v`: the idle counter has counted this
one sample (R94, R95). -/
structure AwaitsEdge (v : Bit) (s : State) : Prop where
  run : s.capState = .run
  noOverflow : s.capOvf = false
  prev : s.capPrev = 1 - v
  since : s.capT0 = s.now
  numIdle : s.capNumIdle = if v = s.cfgIdleLevel then 0 else 1

theorem one_sub_ne_self : ∀ {v : Bit}, 1 - v ≠ v := by decide

theorem one_sub_eq_iff_ne : ∀ {v b : Bit}, 1 - v = b ↔ v ≠ b := by decide

/-- The sample that is the edge counts as the first of an idle run, or ends one (R95). -/
theorem AwaitsEdge.idleCount_eq {v : Bit} {s : State} (h : AwaitsEdge v s) :
    idleCount v s = if 1 - v = s.cfgIdleLevel then 0 else 1 := by
  by_cases hv : v = s.cfgIdleLevel
  · rw [idleCount, if_pos hv, if_neg (mt one_sub_eq_iff_ne.1 (not_not_intro hv)), h.numIdle, if_pos hv]
    rfl
  · rw [idleCount, if_neg hv, if_pos (one_sub_eq_iff_ne.2 hv)]

/-- A sample given to a capture in its run. -/
theorem step_run_sample {s : State} {v : Bit} {d : Nat} {l : List Event} (hl : s.agenda = .sample v d :: l)
    (hrun : s.capState = .run) :
    step s = .next (captureRun v (s.now + d) { s with agenda := l, now := s.now + d }) :=
  (step_cons hl).trans (congrArg Host.Outcome.next (lineSample_run (s := { s with agenda := l }) v d hrun))

/-- A sample of the run at a new level, with room in TRAIN and the idle run within its limit (R94 to R97). -/
theorem step_edge {s : State} {v : Bit} {d : Nat} {l : List Event} (hl : s.agenda = .sample v d :: l)
    (hrun : s.capState = .run) (hcount : (idleCount v s).toNat ≤ s.cfgIdleLimit.toNat) (hne : v ≠ s.capPrev)
    (hroom : s.trainLen < 256) :
    step s = .next { s with
      agenda := l, now := s.now + d, capT0 := s.now + d, capNumIdle := idleCount v s, capPrev := v,
      trainLen := s.trainLen + 1,
      train := Memory.write s.train s.trainLen { level := v, dur := capturedDur s.capT0 (s.now + d) } } := by
  have hgo := captureRun_goesOn (s := { s with agenda := l, now := s.now + d }) (t := s.now + d) hcount
  have hedge : captureEdge v (s.now + d) { s with agenda := l, now := s.now + d } = _ :=
    (if_neg hne).trans (if_pos hroom)
  rw [step_run_sample hl hrun, hgo, hedge]
  rfl

/-- One edge appends the interval it ends, and the run goes on to the next (R94 to R97). -/
theorem AwaitsEdge.step {v : Bit} {s : State} {d : Nat} {l : List Event} {es : List Pulse} (h : AwaitsEdge v s)
    (hlimit : 0 < s.cfgIdleLimit.toNat) (hroom : s.trainLen < 256) (hes : HoldsTrain s es)
    (hl : s.agenda = .sample v d :: l) :
    ∃ t, step s = .next t ∧ AwaitsEdge (1 - v) t ∧ SameConfig s t ∧ t.agenda = l ∧
      HoldsTrain t (es ++ [{ level := v, dur := BitVec.ofNat 32 (min d (2 ^ 32 - 1)) }]) := by
  have hcount : (idleCount v s).toNat ≤ s.cfgIdleLimit.toNat := by
    rw [h.idleCount_eq]
    split
    · exact Nat.zero_le _
    · exact hlimit
  have hne : v ≠ s.capPrev := fun hv => one_sub_eq_iff_ne.1 h.prev.symm hv
  have hdur : capturedDur s.capT0 (s.now + d) = BitVec.ofNat 32 (min d (2 ^ 32 - 1)) := by
    rw [capturedDur, h.since, Nat.add_sub_cancel_left, Config.durW]
  refine ⟨_, step_edge hl h.run hcount hne hroom, ⟨h.run, h.noOverflow, (sub_sub_cancel 1 v).symm, rfl, h.idleCount_eq⟩,
    ⟨rfl, rfl, rfl, rfl, rfl, rfl⟩, rfl, hes.snoc rfl ?_ ?_⟩
  · rw [← hdur]
    exact readTrain_writeTrain_same s _ _
  · exact fun i hi => readTrain_writeTrain_other s _ hi.ne

/-- A line that changes level once per interval is recorded interval by interval (R62, R94). -/
theorem AwaitsEdge.run_edges {v : Bit} {s : State} {ds : List Nat} {l : List Event} {es : List Pulse} (h : AwaitsEdge v s)
    (hlimit : 0 < s.cfgIdleLimit.toNat) (hroom : s.trainLen + ds.length ≤ 256) (hes : HoldsTrain s es)
    (hl : s.agenda = edgeSamples v ds ++ l) :
    ∃ t, runSteps ds.length s = .next t ∧ AwaitsEdge (levelAt v ds.length) t ∧ SameConfig s t ∧ t.agenda = l ∧
      HoldsTrain t (es ++ intervalEntries v ds) := by
  induction ds generalizing v s es with
  | nil => exact ⟨s, rfl, h, .refl s, hl, by simpa [intervalEntries] using hes⟩
  | cons d ds ih =>
    rw [List.length_cons] at hroom
    obtain ⟨u, hu, hawait, hconfig, hagenda, hentry⟩ := h.step hlimit (by omega) hes hl
    have hlimit' : 0 < u.cfgIdleLimit.toNat := by
      rw [hconfig.idleLimit]
      exact hlimit
    have hlen : u.trainLen = s.trainLen + 1 := by simp [hentry.1, hes.1]
    obtain ⟨t, ht, hend, hconfig', hagenda', hentries⟩ := ih hawait hlimit' (by omega) hentry hagenda
    refine ⟨t, (runSteps_succ hu).trans ht, ?_, hconfig.trans hconfig', hagenda', ?_⟩
    · rwa [levelAt_one_sub] at hend
    · rwa [List.append_assoc, List.singleton_append] at hentries

/-! ## The idle run -/

/-- An idle sample on an idle line counts while the count is within the limit (R95). -/
theorem captureRun_idle_counts {s : State} (t : Nat) (hprev : s.capPrev = s.cfgIdleLevel)
    (hcount : (s.capNumIdle + 1).toNat ≤ s.cfgIdleLimit.toNat) :
    captureRun s.cfgIdleLevel t s = { s with capNumIdle := s.capNumIdle + 1 } := by
  have hidle : idleCount s.capPrev s = s.capNumIdle + 1 := if_pos hprev
  refine (congrArg (captureRun · t s) hprev.symm).trans ?_
  rw [captureRun_goesOn (hidle.symm ▸ hcount), captureEdge_same rfl, hidle]

/-- The idle sample that takes the count above the limit ends the capture (R96). -/
theorem captureRun_idle_ends {s : State} (t : Nat) (hprev : s.capPrev = s.cfgIdleLevel)
    (hcount : s.cfgIdleLimit.toNat < (s.capNumIdle + 1).toNat) :
    captureRun s.cfgIdleLevel t s = captureFinish { s with capNumIdle := s.capNumIdle + 1 } := by
  have hidle : idleCount s.cfgIdleLevel s = s.capNumIdle + 1 := if_pos rfl
  rw [captureRun_ends (hidle.symm ▸ hcount), captureEdge_same hprev.symm, hidle]

/-- A run of idle samples one longer than the limit ends the capture with its last sample (R96). -/
theorem run_idle_samples {s : State} {dts : List Nat} {l : List Event} (hrun : s.capState = .run)
    (hprev : s.capPrev = s.cfgIdleLevel) (hlegal : s.cfgIdleLimit ≠ BitVec.allOnes 32) (hsome : 0 < dts.length)
    (hcount : s.capNumIdle.toNat + dts.length = s.cfgIdleLimit.toNat + 1)
    (hl : s.agenda = levelSamples s.cfgIdleLevel dts ++ l) :
    ∃ u n, runSteps dts.length s = .next (captureFinish { s with agenda := l, now := u, capNumIdle := n }) := by
  have hlimit : s.cfgIdleLimit.toNat + 1 < 2 ^ 32 := by
    have hne : s.cfgIdleLimit.toNat ≠ 2 ^ 32 - 1 := fun h =>
      hlegal (BitVec.eq_of_toNat_eq (h.trans (BitVec.toNat_allOnes).symm))
    have := s.cfgIdleLimit.isLt
    omega
  induction dts generalizing s with
  | nil => exact absurd hsome (Nat.lt_irrefl 0)
  | cons d dts ih =>
    rw [List.length_cons] at hcount
    have hnext : (s.capNumIdle + 1).toNat = s.capNumIdle.toNat + 1 :=
      (BitVec.toNat_add _ _).trans (Nat.mod_eq_of_lt (by simp; omega))
    rcases Nat.eq_zero_or_pos dts.length with hlast | hmore
    · obtain rfl := List.length_eq_zero_iff.1 hlast
      have hends := captureRun_idle_ends (s := { s with agenda := l, now := s.now + d }) (s.now + d) hprev (by dsimp only; omega)
      exact ⟨_, _, runSteps_one ((step_run_sample hl hrun).trans (congrArg Host.Outcome.next hends))⟩
    · have hcounts := captureRun_idle_counts (s := { s with agenda := levelSamples s.cfgIdleLevel dts ++ l, now := s.now + d })
        (s.now + d) hprev (by dsimp only; omega)
      have hstep := (step_run_sample hl hrun).trans (congrArg Host.Outcome.next hcounts)
      rw [List.length_cons, runSteps_succ hstep]
      have hleft : (s.capNumIdle + 1).toNat + dts.length = s.cfgIdleLimit.toNat + 1 := by omega
      exact ih hrun hprev hlegal hmore hleft rfl hlimit

/-! ## A whole capture -/

/-- The active sample that ends the wait starts a run whose first edge is to the idle level (R93). -/
theorem step_starts_run {s : State} {d : Nat} {l : List Event} (hwait : s.capState = .wait) (hovf : s.capOvf = false)
    (hl : s.agenda = .sample (1 - s.cfgIdleLevel) d :: l) :
    ∃ t, step s = .next t ∧ AwaitsEdge s.cfgIdleLevel t ∧ SameConfig s t ∧ t.agenda = l ∧ t.trainLen = s.trainLen := by
  have hstart := (lineSample_wait (s := { s with agenda := l }) (1 - s.cfgIdleLevel) d hwait).trans (if_pos rfl)
  refine ⟨_, (step_cons hl).trans (congrArg Host.Outcome.next hstart), ⟨rfl, hovf, rfl, rfl, (if_pos rfl).symm⟩,
    ⟨rfl, rfl, rfl, rfl, rfl, rfl⟩, rfl, rfl⟩

/-- Settles O17: the sample that starts the run, the edges, and the idle run that ends it. -/
theorem captureRecordsIntervals : Obligations.CaptureRecordsIntervals := by
  intro s d0 ds tl hwait hlen hovf hodd hroom hmin hlimit hlegal htl hl
  obtain ⟨r, hstart, hawait, hconfig, hagenda, hempty⟩ := step_starts_run hwait hovf hl
  have hlimit' : 0 < r.cfgIdleLimit.toNat := by
    rw [hconfig.idleLimit]
    exact hlimit
  obtain ⟨u, hedges, hlast, hconfig', hagenda', hentries⟩ :=
    hawait.run_edges hlimit' (by omega) (es := []) ⟨hempty.trans hlen, nofun⟩ hagenda
  rw [List.nil_append] at hentries
  obtain ⟨hlevel, hlim, hpulses, -, -, -⟩ := hconfig.trans hconfig'
  have hlevelAt : levelAt s.cfgIdleLevel ds.length = 1 - u.cfgIdleLevel := by rw [levelAt, if_neg (by omega), hlevel]
  rw [hlevelAt] at hlast
  have hprev : u.capPrev = u.cfgIdleLevel := hlast.prev.trans (sub_sub_cancel 1 _)
  have hone : u.capNumIdle = 1 := hlast.numIdle.trans (if_neg one_sub_ne_self)
  have hcount : u.capNumIdle.toNat + tl.length = u.cfgIdleLimit.toNat + 1 := by
    rw [hone, htl, hlim]
    exact Nat.add_comm 1 _
  obtain ⟨z, n, hend⟩ := run_idle_samples (l := []) hlast.run hprev (hlim.trans_ne hlegal) (by omega) hcount
    (by rw [hagenda', hlevel, List.append_nil])
  have hlong : u.cfgMinPulses.toNat ≤ u.trainLen := by
    rw [hpulses, hentries.1, length_intervalEntries]
    exact hmin
  have hok := captureFinish_ok (s := { u with agenda := [], now := z, capNumIdle := n }) hlast.noOverflow hlong
  have hrun : runSteps (1 + ds.length + tl.length) s = runSteps tl.length u := by
    rw [Nat.add_assoc, runSteps_add (runSteps_one hstart), runSteps_add hedges]
  refine ⟨_, hrun.trans (hend.trans (congrArg Host.Outcome.next hok)), rfl, rfl, rfl, rfl, ?_⟩
  exact (intervalEntries_eq_map_zipIdx s.cfgIdleLevel ds 0).symm ▸ hentries

end Sys2Proof.Machine
end

section
/-! PROOFS. ENC left to itself emits the frame of the payload, one event a step (43_encode.md rules R142 to R148). -/

namespace Sys2Proof.Machine

/-! ## The position of the encoder -/

/-- The data bit `n` of the payload, byte 0 and its least significant bit first (R68, R71). -/
def dataBit (s : State) (n : Nat) : Bool := (readPayload s (n / 8)).getLsbD (n % 8)

/-- The data bit ENC stands at, counted from the first (R148). -/
def encPosition (s : State) : Nat := 8 * s.encByte + s.encBit.val

/-- ENC sends the data bit at its position. -/
theorem encodeBit_eq_dataBit (s : State) : encodeBit s = dataBit s (encPosition s) := by
  have hbit := s.encBit.isLt
  have hbyte : encPosition s / 8 = s.encByte := by
    rw [encPosition]
    omega
  have hrest : encPosition s % 8 = s.encBit.val := by
    rw [encPosition]
    omega
  rw [encodeBit, dataBit, hbyte, hrest]

/-- The data bits of the payload are those of its positions. -/
theorem payloadBits_payloadBytes (s : State) : payloadBits (payloadBytes s) = (List.range (8 * s.payLen)).map (dataBit s) := by
  have upTo : ∀ n, payloadBits ((List.range n).map (readPayload s)) = (List.range (8 * n)).map (dataBit s) := by
    intro n
    induction n with
    | zero => rfl
    | succ n ih =>
      have hlast : byteBits (readPayload s n) = ((List.range 8).map (8 * n + ·)).map (dataBit s) := by
        rw [byteBits, List.map_map]
        refine List.map_congr_left fun k hk => ?_
        have hk8 := List.mem_range.1 hk
        have hdiv : (8 * n + k) / 8 = n := by omega
        have hmod : (8 * n + k) % 8 = k := by omega
        simp only [Function.comp_apply, dataBit, hdiv, hmod]
      rw [List.range_succ, List.map_append, payloadBits, List.flatMap_append, ← payloadBits, ih, Nat.mul_succ, List.range_add,
        List.map_append, ← hlast]
      simp
  exact upTo s.payLen

/-- The phase of ENC with `m` data bits still to send. -/
def phaseWithLeft (m : Nat) : EncPhase := if m = 0 then .stopMark else .bitMark

/-- With `m` data bits left after this one, ENC goes to the next position, or to the stop bit (R148). -/
theorem nextBit_moves {s : State} {m : Nat} (h : encPosition s + 1 + m = 8 * s.payLen) :
    ∃ j k, nextBit s = { s with encPhase := phaseWithLeft m, encByte := j, encBit := k } ∧
      (m ≠ 0 → 8 * j + k.val = encPosition s + 1) := by
  have hbit := s.encBit.isLt
  unfold encPosition at h
  by_cases hk : s.encBit.val < 7
  · have hm : m ≠ 0 := by omega
    refine ⟨s.encByte, s.encBit + 1, ?_, fun _ => ?_⟩
    · rw [phaseWithLeft, if_neg hm]
      exact if_pos hk
    · rw [encPosition, Fin.val_add_one_of_lt (Fin.lt_def.2 hk)]
      omega
  · by_cases hj : s.encByte + 1 < s.payLen
    · have hm : m ≠ 0 := by omega
      refine ⟨s.encByte + 1, 0, ?_, fun _ => ?_⟩
      · rw [phaseWithLeft, if_neg hm]
        exact (if_neg hk).trans (if_pos hj)
      · simp only [encPosition, Fin.val_zero]
        omega
    · have hm : m = 0 := by omega
      refine ⟨s.encByte, s.encBit, ?_, fun hne => absurd hm hne⟩
      rw [phaseWithLeft, if_pos hm]
      exact (if_neg hk).trans (if_neg hj)

/-! ## Runs of the encoder -/

/-- A mark, a change of phase and the space of the same symbol append the symbol's events. -/
theorem emitSpace_after_mark (i : Instr) (p : EncPhase) (s : State) :
    emitSpace i { emitMark i s with encPhase := p } =
      { s with out := s.out ++ symbolEvents s.encPeriod i, encPhase := p } :=
  congrArg (fun t : State => { t with encPhase := p }) (emitSymbol_eq i s)

/-- With no move of the environment to come, ENC at work takes its next event. -/
theorem step_encoder {s : State} (ha : s.agenda = []) (hp : s.encPhase ≠ .idle) : step s = .next (encodeStep s) :=
  (step_nil ha).trans (congrArg Host.Outcome.next (if_pos hp))

/-- The mark and the gap of the start symbol (R148). -/
theorem run_start {s : State} (ha : s.agenda = []) (hp : s.encPhase = .startMark) :
    runSteps 2 s = .next { s with
      out := s.out ++ symbolEvents s.encPeriod .lineStart, encPhase := phaseWithLeft (8 * s.payLen) } := by
  have hmark : step s = .next { emitMark .lineStart s with encPhase := .startGap } := by
    rw [step_encoder ha (by simp [hp]), encodeStep_startMark hp]
  have hgap := step_encoder (s := { emitMark .lineStart s with encPhase := .startGap }) ha nofun
  rw [encodeStep_startGap rfl] at hgap
  have hphase : (if 0 < s.payLen then EncPhase.bitMark else .stopMark) = phaseWithLeft (8 * s.payLen) := by
    rcases Nat.eq_zero_or_pos s.payLen with h | h
    · rw [if_neg (by omega), phaseWithLeft, if_pos (by omega)]
    · rw [if_pos h, phaseWithLeft, if_neg (by omega)]
  rw [← hphase, runSteps_succ hmark, runSteps_one hgap, emitSpace_after_mark]
  rfl

/-- The mark and the gap of one data bit (R148). -/
theorem run_bit {s : State} (ha : s.agenda = []) (hp : s.encPhase = .bitMark) :
    runSteps 2 s = .next (nextBit { s with
      out := s.out ++ bitEvents s.encPeriod (encodeBit s), encPhase := .bitGap }) := by
  have hmark : step s = .next { emitMark (currentSymbol s) s with encPhase := .bitGap } := by
    rw [step_encoder ha (by simp [hp]), encodeStep_bitMark hp]
  have hgap := step_encoder (s := { emitMark (currentSymbol s) s with encPhase := .bitGap }) ha nofun
  rw [encodeStep_bitGap rfl] at hgap
  have hevents : bitEvents s.encPeriod (encodeBit s) = symbolEvents s.encPeriod (currentSymbol s) :=
    (symbolEvents_bitSymbol _ _).symm
  rw [hevents, ← emitSpace_after_mark, runSteps_succ hmark, runSteps_one hgap]
  rfl

/-- The mark and the gap of the stop symbol complete ENCODE (R148). -/
theorem run_stop {s : State} (ha : s.agenda = []) (hp : s.encPhase = .stopMark) :
    runSteps 2 s = .next { s with
      out := s.out ++ symbolEvents s.encPeriod .lineStop, encPhase := .idle, encResult := .ok, busy := false } := by
  have hmark : step s = .next { emitMark .lineStop s with encPhase := .stopGap } := by
    rw [step_encoder ha (by simp [hp]), encodeStep_stopMark hp]
  have hgap := step_encoder (s := { emitMark .lineStop s with encPhase := .stopGap }) ha nofun
  rw [encodeStep_stopGap rfl] at hgap
  rw [runSteps_succ hmark, runSteps_one hgap, emitSpace_after_mark]

/-- The `m` data bits from ENC's position on, two events each (R145, R148). -/
theorem run_bits {s : State} {m n : Nat} (ha : s.agenda = []) (hp : s.encPhase = phaseWithLeft m)
    (hpos : m ≠ 0 → encPosition s = n) (hleft : n + m = 8 * s.payLen) :
    ∃ j k, runSteps (2 * m) s = .next { s with
      out := s.out ++ (List.range' n m).flatMap (fun i => bitEvents s.encPeriod (dataBit s i)),
      encPhase := .stopMark, encByte := j, encBit := k } := by
  induction m generalizing s n with
  | zero =>
    refine ⟨s.encByte, s.encBit, ?_⟩
    have hstop : s.encPhase = .stopMark := hp
    rw [List.range'_zero, List.flatMap_nil, List.append_nil, ← hstop]
    rfl
  | succ m ih =>
    obtain rfl := hpos (Nat.succ_ne_zero m)
    have hbit := run_bit ha hp
    obtain ⟨j, k, hnext, hat⟩ := nextBit_moves (m := m)
      (s := { s with out := s.out ++ bitEvents s.encPeriod (encodeBit s), encPhase := .bitGap })
      (by rw [← hleft]; exact Nat.add_right_comm _ 1 m)
    rw [hnext] at hbit
    obtain ⟨j', k', hrest⟩ := ih (n := encPosition s + 1) (s := { s with
      out := s.out ++ bitEvents s.encPeriod (encodeBit s), encPhase := phaseWithLeft m, encByte := j, encBit := k })
      ha rfl hat (by rw [← hleft]; exact Nat.add_right_comm _ 1 m)
    refine ⟨j', k', ?_⟩
    rw [Nat.mul_succ, Nat.add_comm, runSteps_add hbit, hrest, List.range'_succ, List.flatMap_cons, ← encodeBit_eq_dataBit,
      List.append_assoc]
    rfl

/-- The events of a frame, its data bits by position (R145, R146). -/
theorem frameEvents_payloadBytes (P : Rat) (s : State) :
    frameEvents P (payloadBytes s) = symbolEvents P .lineStart ++
      (List.range' 0 (8 * s.payLen)).flatMap (fun i => bitEvents P (dataBit s i)) ++ symbolEvents P .lineStop := by
  rw [frameEvents, payloadBits_payloadBytes, List.flatMap_map, List.range_eq_range', symbolEvents_lineStart,
    symbolEvents_lineStop]

/-- ENC at the start mark emits the whole frame and completes OK (R145 to R148). -/
theorem run_frame {s : State} (ha : s.agenda = []) (hp : s.encPhase = .startMark) (hpos : encPosition s = 0) :
    ∃ j k, runSteps (4 + 16 * s.payLen) s = .next { s with
      out := s.out ++ frameEvents s.encPeriod (payloadBytes s), encPhase := .idle, encByte := j, encBit := k,
      encResult := .ok, busy := false } := by
  have hstart := run_start ha hp
  obtain ⟨j, k, hbits⟩ := run_bits (m := 8 * s.payLen) (n := 0)
    (s := { s with
      out := s.out ++ symbolEvents s.encPeriod .lineStart, encPhase := phaseWithLeft (8 * s.payLen) })
    ha rfl (fun _ => hpos) (Nat.zero_add _)
  have hstop := run_stop (s := { s with
    out := s.out ++ symbolEvents s.encPeriod .lineStart ++
      (List.range' 0 (8 * s.payLen)).flatMap (fun i => bitEvents s.encPeriod (dataBit s i))
    encPhase := .stopMark, encByte := j, encBit := k }) ha rfl
  have hcount : 4 + 16 * s.payLen = 2 + (2 * (8 * s.payLen) + 2) := by omega
  refine ⟨j, k, ?_⟩
  rw [hcount, runSteps_add hstart, runSteps_add hbits, frameEvents_payloadBytes, ← List.append_assoc, ← List.append_assoc]
  exact hstop

/-! ## The start of an emission -/

/-- The period the engine computes over one denominator is the nominal one less the offset (R142, R143). -/
theorem compensatedPeriod_eq {s : State} (hb : s.baud ≠ 0) : compensatedPeriod s = nominalLessComp s := by
  have hne : (s.baud.toNat : Rat) ≠ 0 := by
    exact_mod_cast fun h => hb (BitVec.eq_of_toNat_eq h)
  rw [compensatedPeriod, nominalLessComp, periodNumerator]
  push_cast
  rw [sub_div, mul_div_cancel_right₀ _ hne]

/-- A positive period starts the encoder at the start mark (R143, R148). -/
theorem encodeStart_starts {s : State} (hb : s.baud ≠ 0) (hp : 0 < nominalLessComp s) :
    encodeStart s =
      { s with
        encResult := .none, encPeriod := nominalLessComp s, encByte := 0, encBit := 0, encPhase := .startMark } := by
  have hnum : ¬ periodNumerator s ≤ 0 := by
    intro h
    have hle : compensatedPeriod s ≤ 0 := div_nonpos_of_nonpos_of_nonneg (by exact_mod_cast h) (Nat.cast_nonneg _)
    rw [compensatedPeriod_eq hb] at hle
    exact absurd hp (not_lt.2 hle)
  rw [← compensatedPeriod_eq hb]
  exact (if_neg hb).trans (if_neg hnum)

end Sys2Proof.Machine
end

section
/-! PROOFS. RUNTRANSMIT, the host's chain that loads a payload and a rate and sends the frame (30_encoding.md rule R82). -/

namespace Sys2Proof.Machine

/-- The host writes of these bytes to PAYLOAD from element `i` on (R82). -/
def byteWrites (i : Nat) (p : List Byte) : List Event :=
  (Memory.ofListFrom i p).map fun e => .write (.payByte e.1 e.2)

theorem byteWrites_cons (i : Nat) (b : Byte) (p : List Byte) :
    byteWrites i (b :: p) = .write (.payByte i b) :: byteWrites (i + 1) p := rfl

/-- The bytes of a list written one after the other from element `i` on read back, and every other element stays. -/
theorem run_byteWrites {s : State} {p : List Byte} {i : Nat} {l : List Event} (hb : s.busy = false)
    (hroom : i + p.length ≤ 15) (hl : s.agenda = byteWrites i p ++ l) :
    ∃ m, runSteps p.length s = .next { s with agenda := l, payload := m } ∧
      ∀ j, readPayload { s with payload := m } j = (Memory.read? (Memory.ofListFrom i p) j).getD (readPayload s j) := by
  induction p generalizing s i with
  | nil =>
    have hdone : s.agenda = l := hl
    subst hdone
    exact ⟨s.payload, rfl, fun _ => rfl⟩
  | cons b p ih =>
    rw [List.length_cons] at hroom
    rw [byteWrites_cons, List.cons_append] at hl
    have hi : i < 15 := by omega
    have hstep := (step_write hl hb).trans (congrArg Host.Outcome.next (if_pos hi))
    obtain ⟨m, hm, hread⟩ := ih (s := writePayload i b { s with agenda := byteWrites (i + 1) p ++ l }) (i := i + 1) hb
      (by omega) rfl
    refine ⟨m, (runSteps_succ hstep).trans hm, fun j => (hread j).trans ?_⟩
    by_cases hj : j = i
    · subst hj
      have hnone : Memory.read? (Memory.ofListFrom (j + 1) p) j = none := by
        rw [Memory.read_ofListFrom, if_neg (by omega)]
      rw [hnone, Memory.ofListFrom, Memory.read?, if_pos rfl]
      exact readPayload_writePayload_same _ j b
    · rw [Memory.ofListFrom, Memory.read?, if_neg hj]
      exact congrArg _ (readPayload_writePayload_other _ b hj)

/-- The valid bytes are the list that the elements up to its length read. -/
theorem payloadBytes_eq {s : State} {p : List Byte} (hlen : s.payLen = p.length)
    (hread : ∀ j (h : j < p.length), readPayload s j = p[j]) : payloadBytes s = p := by
  refine List.ext_getElem (by simp [payloadBytes, hlen]) fun j hj hp => ?_
  simp [payloadBytes, hread j hp]

/-- The moves that load a payload leave exactly it, whatever the buffer held (R82). -/
theorem run_loadPayload {s : State} {p : List Byte} {l : List Event} (hb : s.busy = false) (hroom : p.length ≤ 15)
    (hl : s.agenda = loadPayload p ++ l) :
    ∃ m, runSteps (p.length + 1) s = .next { s with agenda := l, payload := m, payLen := p.length } ∧
      payloadBytes { s with payload := m, payLen := p.length } = p := by
  have hmoves : s.agenda = byteWrites 0 p ++ .write (.payLen p.length) :: l := by
    rw [hl, loadPayload, List.append_assoc]
    rfl
  obtain ⟨m, hm, hread⟩ := run_byteWrites hb (by omega) hmoves
  have hlen := step_write (s := { s with agenda := .write (.payLen p.length) :: l, payload := m }) rfl hb
  rw [writeRegister_payLen, if_pos hroom] at hlen
  refine ⟨m, (runSteps_add hm).trans (runSteps_one hlen), payloadBytes_eq rfl fun j hj => (hread j).trans ?_⟩
  rw [Memory.read_ofListFrom, if_pos (Nat.zero_le j), Nat.sub_zero, List.getElem?_eq_getElem hj, Option.getD_some]

/-- ENCODE's word written while BUSY = 0, with a usable rate, starts the encoder (R83, R148). -/
theorem step_encode_starts {s : State} {l : List Event} (hl : s.agenda = .command (commandWord .encode) :: l)
    (hb : s.busy = false) (hbaud : s.baud ≠ 0) (hp : 0 < nominalLessComp s) :
    step s = .next { accept (commandWord .encode) s with
      agenda := l, encResult := .none, encPeriod := nominalLessComp s, encByte := 0, encBit := 0,
      encPhase := .startMark } := by
  have hfree : { s with agenda := l }.busy = false := hb
  have hdec : decodeBytes [commandWord .encode] = .ok (.encode, []) := decodeBytes_one_iff.2 rfl
  have hissue := issue_accept (i := .encode) (body := encodeStart) hfree rfl
  have hstart := encodeStart_starts (s := accept (commandWord .encode) { s with agenda := l }) hbaud hp
  exact (step_cons hl).trans ((commandWrite_runs hfree hdec).trans (hissue.trans (congrArg Host.Outcome.next hstart)))

/-- ENCODE written as the last move, with a usable rate, sends the frame and completes OK (R145 to R148). -/
theorem run_encode {s : State} (hl : s.agenda = [.command (commandWord .encode)]) (hb : s.busy = false)
    (hbaud : s.baud ≠ 0) (hp : 0 < nominalLessComp s) :
    ∃ j k, runSteps (1 + (4 + 16 * s.payLen)) s = .next { accept (commandWord .encode) s with
      agenda := [], encResult := .ok, encPeriod := nominalLessComp s, encByte := j, encBit := k, encPhase := .idle,
      busy := false, out := s.out ++ frameEvents (nominalLessComp s) (payloadBytes s) } := by
  have hissue := step_encode_starts hl hb hbaud hp
  obtain ⟨j, k, hframe⟩ := run_frame (s := { accept (commandWord .encode) s with
    agenda := [], encResult := .none, encPeriod := nominalLessComp s, encByte := 0, encBit := 0,
    encPhase := .startMark }) rfl rfl rfl
  exact ⟨j, k, (runSteps_add (runSteps_one hissue)).trans hframe⟩

/-- Settles O39: the loads, ENCODE's issue and the emission, one run after the other. -/
theorem runTransmitSendsPayload : Obligations.RunTransmitSendsPayload := by
  intro s p B hb hroom hB hP hl
  obtain ⟨m, hload, hbytes⟩ := run_loadPayload hb hroom hl
  have hrate := step_write (s := { s with
    agenda := [.write (.baud B), .command (commandWord .encode)], payload := m, payLen := p.length }) rfl hb
  obtain ⟨j, k, hsend⟩ := run_encode (s := { s with
    agenda := [.command (commandWord .encode)], payload := m, payLen := p.length, baud := B }) rfl hb hB hP
  have hcount : p.length + 3 + (4 + 16 * p.length) = p.length + 1 + (1 + (1 + (4 + 16 * p.length))) := by omega
  have hrun := (runSteps_add hload).trans ((runSteps_add (runSteps_one hrate)).trans hsend)
  rw [hcount]
  refine ⟨_, hrun, rfl, rfl, rfl, rfl, hbytes, ?_⟩
  exact congrArg (fun q => s.out ++ frameEvents (1000000 / (B.toNat : Rat) - (s.cfgCompUs.toNat : Rat)) q) hbytes

end Sys2Proof.Machine
end

section
/-! PROOFS. One command, one sample and one run of samples of a capture: its issue, the wait, the run, the three ends
(40_capture.md rules R91 to R104). -/

namespace Sys2Proof.Machine

/-! ## Issue -/

/-- Settles O9: with BUSY = 0 the command is accepted, and its body is the issue of R91. -/
theorem captureIssue : Obligations.CaptureIssue := fun _ hbusy =>
  ⟨_, _, _, _, issue_accept (i := .capture) hbusy rfl⟩

/-! ## The wait -/

/-- A sample given to a waiting capture starts its run or only advances the clock (R92, R93). -/
theorem step_wait_sample {s : State} {v : Bit} {d : Nat} {l : List Event} (hl : s.agenda = .sample v d :: l)
    (hwait : s.capState = .wait) :
    step s = .next (if v = activeLevel s then startRun (s.now + d) { s with agenda := l, now := s.now + d }
      else { s with agenda := l, now := s.now + d }) :=
  (step_cons hl).trans (congrArg Host.Outcome.next (lineSample_wait (s := { s with agenda := l }) v d hwait))

/-- Settles O10: the two cases are those of the wait. -/
theorem captureWaitSample : Obligations.CaptureWaitSample := fun _ _ _ _ hl hwait => step_wait_sample hl hwait

/-- Settles O13: each idle sample leaves the wait as it is. -/
theorem captureOnIdleLineWaits : Obligations.CaptureOnIdleLineWaits := by
  intro s dts l hwait hl
  induction dts generalizing s with
  | nil =>
    obtain rfl : s.agenda = l := hl
    rfl
  | cons d dts ih =>
    have hstep := (step_wait_sample hl hwait).trans (congrArg Host.Outcome.next (if_neg one_sub_ne_self.symm))
    rw [List.length_cons, runSteps_succ hstep, List.sum_cons, ← Nat.add_assoc]
    exact ih _ hwait rfl

/-! ## The run -/

/-- A sample of the run at the level of the sample before it, with the idle run within its limit (R95, R97). -/
theorem step_same_level {s : State} {v : Bit} {d : Nat} {l : List Event} (hl : s.agenda = .sample v d :: l)
    (hrun : s.capState = .run) (hcount : (idleCount v s).toNat ≤ s.cfgIdleLimit.toNat) (hsame : v = s.capPrev) :
    step s = .next { s with agenda := l, now := s.now + d, capNumIdle := idleCount v s } := by
  subst hsame
  have hgo := captureRun_goesOn (s := { s with agenda := l, now := s.now + d }) (t := s.now + d) hcount
  rw [step_run_sample hl hrun, hgo, captureEdge_same (s := { s with agenda := l, now := s.now + d }) rfl]
  rfl

/-- A sample of the run at a new level that finds TRAIN full, with the idle run within its limit (R97, R99). -/
theorem step_lost_edge {s : State} {v : Bit} {d : Nat} {l : List Event} (hl : s.agenda = .sample v d :: l)
    (hrun : s.capState = .run) (hcount : (idleCount v s).toNat ≤ s.cfgIdleLimit.toNat) (hne : v ≠ s.capPrev)
    (hfull : ¬ s.trainLen < 256) :
    step s = .next { s with
      agenda := l, now := s.now + d, capT0 := s.now + d, capNumIdle := idleCount v s, capPrev := v, capOvf := true } := by
  have hgo := captureRun_goesOn (s := { s with agenda := l, now := s.now + d }) (t := s.now + d) hcount
  have hedge : captureEdge v (s.now + d) { s with agenda := l, now := s.now + d } = _ :=
    (if_neg hne).trans (if_neg hfull)
  rw [step_run_sample hl hrun, hgo, hedge]
  rfl

/-- Settles O11: no edge, an edge with room in TRAIN, an edge lost. -/
theorem captureRunSample : Obligations.CaptureRunSample := by
  intro s v dt l hl hrun n hcount
  by_cases hsame : v = s.capPrev
  · rw [if_pos hsame]
    exact step_same_level hl hrun hcount hsame
  rw [if_neg hsame]
  by_cases hroom : s.trainLen < 256
  · rw [if_pos hroom]
    exact step_edge hl hrun hcount hsame hroom
  · rw [if_neg hroom]
    exact step_lost_edge hl hrun hcount hsame hroom

/-- Samples of the run at the level the line already has leave all but the clock and the idle counter, while the idle run
stays within its limit (R95, R97). -/
theorem run_level_samples {s : State} {v : Bit} {dts : List Nat} {l : List Event} (hrun : s.capState = .run)
    (hprev : v = s.capPrev) (hcount : v = s.cfgIdleLevel → s.capNumIdle.toNat + dts.length ≤ s.cfgIdleLimit.toNat)
    (hl : s.agenda = levelSamples v dts ++ l) :
    ∃ c, runSteps dts.length s = .next { s with agenda := l, now := s.now + dts.sum, capNumIdle := c } := by
  induction dts generalizing s with
  | nil =>
    obtain rfl : s.agenda = l := hl
    exact ⟨_, rfl⟩
  | cons d dts ih =>
    rw [List.length_cons] at hcount
    have hnext : (idleCount v s).toNat ≤ s.cfgIdleLimit.toNat ∧
        (v = s.cfgIdleLevel → (idleCount v s).toNat + dts.length ≤ s.cfgIdleLimit.toNat) := by
      by_cases hv : v = s.cfgIdleLevel
      · have hroom := hcount hv
        have hidle : (idleCount v s).toNat = s.capNumIdle.toNat + 1 := by
          rw [idleCount, if_pos hv]
          exact BitVec.toNat_add_of_lt (Nat.lt_of_le_of_lt (by simp; omega) s.cfgIdleLimit.isLt)
        exact ⟨by omega, fun _ => by omega⟩
      · rw [idleCount, if_neg hv]
        exact ⟨Nat.zero_le _, fun h => absurd h hv⟩
    obtain ⟨hwithin, hrest⟩ := hnext
    rw [List.length_cons, runSteps_succ (step_same_level hl hrun hwithin hprev), List.sum_cons, ← Nat.add_assoc]
    exact ih hrun hprev hrest rfl

/-- Settles O14: active samples never count. -/
theorem captureOnStuckLineRuns : Obligations.CaptureOnStuckLineRuns := fun _ _ _ hrun hprev hl =>
  run_level_samples hrun hprev.symm (fun hv => absurd hv one_sub_ne_self) hl

/-! ## The end -/

/-- The result a capture ends with: overflow first, then the minimum length (R98, R188). -/
theorem captureFinish_capResult (s : State) : (captureFinish s).capResult =
    if s.capOvf then .overflow else if s.cfgMinPulses.toNat ≤ s.trainLen then .ok else .tooShort := by
  rcases Bool.eq_false_or_eq_true s.capOvf with ho | ho
  · rw [captureFinish_overflow ho, if_pos ho]
  rw [if_neg (Bool.eq_false_iff.1 ho)]
  by_cases hlen : s.cfgMinPulses.toNat ≤ s.trainLen
  · rw [captureFinish_ok ho hlen, if_pos hlen]
  · rw [captureFinish_tooShort ho (not_le.1 hlen), if_neg hlen]

/-- The end of a capture frees the engine and leaves the moves to come (R83, R98). -/
theorem captureFinish_frees (s : State) : (captureFinish s).busy = false ∧ (captureFinish s).agenda = s.agenda := by
  rcases captureFinish_cases s with ⟨-, e⟩ | ⟨r, -, e⟩
  all_goals
    rw [e]
    exact ⟨rfl, rfl⟩

/-- Settles O15: within the limit the idle samples only count, and the last one ends the run. -/
theorem captureEndsAfterIdleRun : Obligations.CaptureEndsAfterIdleRun := by
  intro s dts l hrun hbusy hprev hlegal hcount hsome hl
  refine ⟨fun k hk => ?_, ?_⟩
  · have htake : (dts.take k).length = k := List.length_take_of_le hk.le
    have hsplit : s.agenda =
        levelSamples s.cfgIdleLevel (dts.take k) ++ (levelSamples s.cfgIdleLevel (dts.drop k) ++ l) := by
      rw [hl, ← List.append_assoc, levelSamples, levelSamples, levelSamples, ← List.map_append, List.take_append_drop]
    obtain ⟨c, hwaits⟩ := run_level_samples hrun hprev.symm (fun _ => by omega) hsplit
    rw [htake] at hwaits
    exact ⟨_, hwaits, hrun, hbusy, rfl⟩
  · obtain ⟨u, n, hends⟩ := run_idle_samples hrun hprev hlegal hsome hcount hl
    obtain ⟨hfree, hagenda⟩ := captureFinish_frees { s with agenda := l, now := u, capNumIdle := n }
    exact ⟨_, hends, captureFinish_capState _, hfree, hagenda, captureFinish_capResult _⟩

/-- The sample of the run that takes the idle run above its limit ends the capture after its own edge (R94 to R96). -/
theorem step_ends {s : State} {v : Bit} {d : Nat} {l : List Event} (hl : s.agenda = .sample v d :: l)
    (hrun : s.capState = .run) (hcount : s.cfgIdleLimit.toNat < (idleCount v s).toNat) :
    step s = .next (captureFinish
      { captureEdge v (s.now + d) { s with agenda := l, now := s.now + d } with capNumIdle := idleCount v s }) :=
  (step_run_sample hl hrun).trans
    (congrArg Host.Outcome.next (captureRun_ends (s := { s with agenda := l, now := s.now + d }) hcount))

/-- An edge as one update: whether the level is new, and whether TRAIN is full, say what each register becomes (R94, R99). -/
theorem captureEdge_eq (v : Bit) (t : Nat) (s : State) :
    let edge : Bool := decide (v ≠ s.capPrev)
    let full : Bool := decide (256 ≤ s.trainLen)
    captureEdge v t s = { s with
      train := if edge && !full then Memory.write s.train s.trainLen { level := v, dur := capturedDur s.capT0 t }
        else s.train
      trainLen := if edge && !full then s.trainLen + 1 else s.trainLen
      capT0 := if edge then t else s.capT0
      capOvf := s.capOvf || (edge && full) } := by
  intro edge full
  rcases captureEdge_cases v t s with ⟨hv, e⟩ | ⟨hv, hroom, e⟩ | ⟨hv, hfull, e⟩
  · have hedge : edge = false := by simp [edge, hv]
    simp [e, hedge]
  · have hedge : edge = true := by simp [edge, hv]
    have hfull : full = false := decide_eq_false (not_le.2 hroom)
    simp [e, hedge, hfull, writeTrain]
  · have hedge : edge = true := by simp [edge, hv]
    have hfull : full = true := decide_eq_true hfull
    simp [e, hedge, hfull]

/-- Settles O12: the sample's own edge, and then the three ends of a capture. -/
theorem captureCompletion : Obligations.CaptureCompletion := by
  intro s v dt l hl hrun hv hcount edge full len ovf kept t0
  have hidle : idleCount v s = s.capNumIdle + 1 := if_pos hv
  have hstep : step s = .next (captureFinish { s with
      agenda := l, now := s.now + dt, train := kept, trainLen := len, capT0 := t0, capOvf := ovf,
      capNumIdle := s.capNumIdle + 1 }) := by
    rw [step_ends hl hrun (hidle.symm ▸ hcount), captureEdge_eq, hidle]
    rfl
  have hkept : ovf = false → s.capOvf = false := fun h => (Bool.or_eq_false_iff.1 h).1
  rw [hstep]
  clear_value ovf
  refine ⟨?overflow, ?ok, ?tooShort⟩
  case overflow =>
    rintro rfl
    exact ⟨_, _, _, congrArg Host.Outcome.next (captureFinish_overflow rfl)⟩
  case ok =>
    rintro rfl hlen
    rw [captureFinish_ok rfl hlen, hkept rfl]
  case tooShort =>
    rintro rfl hlen
    rw [hkept rfl]
    exact ⟨_, _, _, congrArg Host.Outcome.next (captureFinish_tooShort rfl hlen)⟩

/-! ## One active sample -/

/-- In a run that has recorded nothing, an idle line makes one entry and ends the capture too short: at once if the limit is
0, else after the idle samples that remain (R96, R104). -/
theorem AwaitsEdge.run_to_tooShort {s : State} {dts : List Nat} (h : AwaitsEdge s.cfgIdleLevel s) (hempty : s.trainLen = 0)
    (hmin : 1 < s.cfgMinPulses.toNat) (hlegal : s.cfgIdleLimit ≠ BitVec.allOnes 32)
    (hlen : dts.length = s.cfgIdleLimit.toNat + 1) (hl : s.agenda = levelSamples s.cfgIdleLevel dts) :
    ∃ t, runSteps dts.length s = .next t ∧ t.capResult = .tooShort ∧ t.trainLen = 0 ∧ t.busy = false ∧
      t.capState = .idle := by
  obtain ⟨d, dts, rfl⟩ : ∃ d ds, dts = d :: ds := List.exists_cons_of_length_eq_add_one hlen
  rw [List.length_cons] at hlen ⊢
  rcases Nat.eq_zero_or_pos dts.length with hlast | hmore
  · obtain rfl := List.length_eq_zero_iff.1 hlast
    have hlimit : s.cfgIdleLimit.toNat = 0 := by simpa using hlen.symm
    have hcount : s.cfgIdleLimit.toNat < (s.capNumIdle + 1).toNat := by
      rw [hlimit, h.numIdle, if_pos rfl]
      decide
    obtain ⟨-, -, hshort⟩ := captureCompletion s _ d [] hl h.run rfl hcount
    have hroom : decide (256 ≤ s.trainLen) = false := by simp [hempty]
    rw [hroom] at hshort
    obtain ⟨tr, g, k, hend⟩ := hshort (by simp [h.noOverflow]) (by rw [hempty]; split <;> omega)
    exact ⟨_, runSteps_one hend, rfl, rfl, rfl, rfl⟩
  · obtain ⟨u, hedge, hawait, ⟨hlevel, hlimit, hpulses, -⟩, hagenda, hone, -⟩ :=
      h.step (es := []) (by omega) (by omega) ⟨hempty, nofun⟩ hl
    have hprev : u.capPrev = u.cfgIdleLevel := by rw [hawait.prev, hlevel, sub_sub_cancel]
    have hcount : u.capNumIdle.toNat + dts.length = u.cfgIdleLimit.toNat + 1 := by
      rw [hawait.numIdle, if_neg (hlevel ▸ one_sub_ne_self), hlimit]
      exact (Nat.add_comm 1 _).trans hlen
    obtain ⟨z, n, hends⟩ := run_idle_samples (l := []) hawait.run hprev (hlimit.trans_ne hlegal) hmore hcount
      (by rw [hagenda, hlevel, List.append_nil]; rfl)
    have hshort := captureFinish_tooShort (s := { u with agenda := [], now := z, capNumIdle := n }) hawait.noOverflow
      (by rw [hone, hpulses]; exact hmin)
    exact ⟨_, (runSteps_succ hedge).trans (hends.trans (congrArg Host.Outcome.next hshort)), rfl, rfl, rfl, rfl⟩

/-- Settles O16: the active sample starts the run, and the idle line ends it. -/
theorem singleActiveSampleIsTooShort : Obligations.SingleActiveSampleIsTooShort := by
  intro s d0 dts hwait hempty hovf hmin hlegal hlen hl
  obtain ⟨r, hstart, hawait, ⟨hlevel, hlimit, hpulses, -⟩, hagenda, hempty'⟩ := step_starts_run hwait hovf hl
  rw [runSteps_add (runSteps_one hstart)]
  rw [← hlevel] at hawait hagenda
  exact hawait.run_to_tooShort (hempty'.trans hempty) (by rwa [hpulses]) (by rwa [hlimit]) (by rwa [hlimit]) hagenda

end Sys2Proof.Machine
end

section
/-! PROOFS. DECODE: the terms of its statements are the machine's own, which decision each bit of a byte is, that the rate
selector finds the nearest rate, and its three outcomes as next states (41_decode.md rules R110 to R122, R126). -/

namespace Sys2Proof.Machine

/-! ## The terms of the statements -/

/-- The entry `i` of the analysed region is the entry `2 + i` of the train (R111). -/
theorem remDur_eq_trainDur (s : State) (i : Nat) : remDur s i = trainDur s (2 + i) := by
  rw [remDur, trainDur, Nat.add_comm]
  rfl

theorem analysedLen_eq_decodeN (s : State) : analysedLen s = decodeN s := rfl

theorem markSum_eq_decodeS (s : State) : markSum s = decodeS s := by
  simp only [markSum, decodeS, analysedLen_eq_decodeN, remDur_eq_trainDur]

theorem frameLengthWrong_eq_warningDue (s : State) : frameLengthWrong s = warningDue s := by
  simp [frameLengthWrong, warningDue, remainingLen, Config.preamble, Config.group, bne, Bool.beq_eq_decide_eq]

/-- There is a whole group from 18 entries on (R112, R114). -/
theorem decodeN_eq_zero_iff (s : State) : decodeN s = 0 ↔ s.trainLen < 18 := by
  rw [decodeN]
  omega

theorem decodeN_ne_zero {s : State} (h : 18 ≤ s.trainLen) : decodeN s ≠ 0 := (decodeN_eq_zero_iff s).not.2 (not_lt.2 h)

/-! ## The bits of a byte -/

/-- Shifting in moves every bit one place down and puts the decision in bit 7 (R69). -/
theorem getLsbD_shiftIn (acc : Byte) (b : Bool) {k : Nat} (hk : k < 8) :
    (shiftIn acc b).getLsbD k = if k = 7 then b else acc.getLsbD (k + 1) := by
  have hset : (0x80#8).getLsbD k = decide (k = 7) := by
    revert k
    decide
  by_cases h7 : k = 7
  · cases b <;> simp [shiftIn, h7]
  · cases b <;> simp [shiftIn, hset, h7, Nat.add_comm 1 k]

/-- After `n` decisions the byte holds the latest 8 of them, the latest in bit 7 (R120). -/
theorem getLsbD_foldl_shiftIn (f : Nat → Bool) (n : Nat) {k : Nat} (hk : k < 8) :
    ((List.range n).foldl (fun acc i => shiftIn acc (f i)) 0).getLsbD k =
      if 8 ≤ n + k then f (n + k - 8) else false := by
  induction n generalizing k with
  | zero => simp [show ¬ 8 ≤ k by omega]
  | succ n ih =>
    rw [List.range_succ, List.foldl_append, List.foldl_cons, List.foldl_nil, getLsbD_shiftIn _ _ hk]
    by_cases h7 : k = 7
    · simp [h7, show n + 1 + 7 - 8 = n by omega]
    · rw [if_neg h7, ih (by omega), show n + (k + 1) = n + 1 + k by omega]

/-- Bit `k` of a group's byte is the decision on its space `k`, whatever the arithmetic (R71, R120). -/
theorem getLsbD_groupByte (a : Arith) (s : State) (g : Nat) {k : Nat} (hk : k < 8) :
    (groupByte a s g).getLsbD k = isLong a (decodeN s) (decodeS s) (trainDur s (2 + (16 * g + 2 * k + 1))) := by
  rw [groupByte, getLsbD_foldl_shiftIn _ 8 hk, if_pos (Nat.le_add_right 8 k), Nat.add_sub_cancel_left, markSum_eq_decodeS,
    remDur_eq_trainDur]
  rfl

theorem getLsbD_groupByte_exact (s : State) (g : Nat) {k : Nat} (hk : k < 8) :
    (groupByte .exact s g).getLsbD k = decodedBit s g k := getLsbD_groupByte .exact s g hk

/-! ## The nearest rate -/

theorem absDiff_readLut (x i : Nat) : absDiff x (readLut i) = rateDistance x i := by
  rw [absDiff, rateDistance]
  change max x (readLut i) - min x (readLut i) = ((x : Int) - (readLut i : Nat)).natAbs
  omega

/-- `best` is the first of the entries `0 .. n` at the smallest distance, with that distance (R131, R132). -/
structure BestUpTo (x n : Nat) (best : Nat × Nat) : Prop where
  dist : best.2 = rateDistance x best.1
  le : best.1 ≤ n
  least : ∀ j ≤ n, best.2 ≤ rateDistance x j
  first : ∀ j < best.1, best.2 < rateDistance x j

/-- One comparison of the scan takes one more entry into account. -/
theorem BestUpTo.step {x n : Nat} {best : Nat × Nat} (h : BestUpTo x n best) :
    BestUpTo x (n + 1) (nearestStep x best (n + 1)) := by
  obtain ⟨hdist, hle, hleast, hfirst⟩ := h
  rw [nearestStep, absDiff_readLut]
  split
  case isTrue hlt =>
    refine ⟨rfl, le_rfl, fun j hj => ?_, fun j hj => hlt.trans_le (hleast j (Nat.le_of_lt_succ hj))⟩
    rcases Nat.le_succ_iff.1 hj with hj | rfl
    · exact hlt.le.trans (hleast j hj)
    · exact le_rfl
  case isFalse hge =>
    refine ⟨hdist, hle.trans n.le_succ, fun j hj => ?_, hfirst⟩
    rcases Nat.le_succ_iff.1 hj with hj | rfl
    · exact hleast j hj
    · exact not_lt.1 hge

theorem bestUpTo_scan (x n : Nat) :
    BestUpTo x n ((List.range' 1 n).foldl (nearestStep x) (0, absDiff x (readLut 0))) := by
  induction n with
  | zero =>
    refine ⟨absDiff_readLut x 0, le_rfl, fun j hj => ?_, nofun⟩
    rw [Nat.le_zero.1 hj]
    exact (absDiff_readLut x 0).le
  | succ n ih =>
    rw [List.range'_1_concat, List.foldl_append, Nat.add_comm 1 n]
    exact ih.step

/-- The selector answers the nearest rate, the first listed on a tie (R131, R132). -/
theorem nearestIdx_isNearest (x : Nat) : IsNearest x (nearestIdx x) := by
  obtain ⟨hdist, hle, hleast, hfirst⟩ := bestUpTo_scan x 12
  rw [hdist] at hleast hfirst
  exact ⟨hle, hleast, hfirst⟩

/-! ## The three outcomes -/

/-- The state in which DECODE has been accepted, but for BUSY, which it leaves at 0 in the end (R83, R126). -/
def decodeIssued (s : State) : State :=
  { s with cmd := commandWord .decode, cmdErr := .accepted, opActive := 2 }

/-- DECODE neither reads nor writes BUSY. -/
theorem complete_decodeTrain (a : Arith) (s : State) : complete (decodeTrain a s) = decodeTrain a (complete s) := by
  by_cases hn : analysedLen s = 0
  · rw [decodeTrain_noGroup hn, decodeTrain_noGroup (s := complete s) hn]
    rfl
  cases hz : thresholdZero a (analysedLen s) (markSum s) with
  | true =>
    rw [decodeTrain_zeroThreshold hn hz, decodeTrain_zeroThreshold (s := complete s) hn hz]
    rfl
  | false =>
    rw [decodeTrain_ok hn hz, decodeTrain_ok (s := complete s) hn hz]
    rfl

/-- DECODE is issued as one step, in this hardware's arithmetic (R9, R126). -/
theorem exec_decode_eq_issue (s : State) :
    exec .decode s = issue .decode (fun t => complete (decodeTrain .exact t)) s := rfl

/-- DECODE written while BUSY = 0 has run in that step (R126). -/
theorem exec_decode {s : State} (hb : s.busy = false) :
    exec .decode s = .next (decodeTrain .exact (decodeIssued s)) := by
  have hfree : complete (accept (commandWord .decode) s) = decodeIssued s := by
    cases s
    subst hb
    rfl
  rw [exec_decode_eq_issue, issue_accept hb rfl, complete_decodeTrain, hfree]

/-- Settles O20: without a whole group the first of the three outcomes. -/
theorem decodeNoGroup : Obligations.DecodeNoGroup := by
  intro s hb hlen
  have hn : analysedLen (decodeIssued s) = 0 := (decodeN_eq_zero_iff s).2 hlen
  rw [exec_decode hb, decodeTrain_noGroup hn, frameLengthWrong_eq_warningDue]
  exact ⟨_, rfl⟩

/-- Settles O21: with a mark sum of 0 the second. -/
theorem decodeZeroThreshold : Obligations.DecodeZeroThreshold := by
  intro s hb hlen hsum
  have hn : analysedLen (decodeIssued s) ≠ 0 := decodeN_ne_zero hlen
  have hz : thresholdZero .exact (analysedLen (decodeIssued s)) (markSum (decodeIssued s)) = true :=
    decide_eq_true ((markSum_eq_decodeS s).trans hsum)
  rw [exec_decode hb, decodeTrain_zeroThreshold hn hz, frameLengthWrong_eq_warningDue]
  exact ⟨_, rfl⟩

/-- The rate estimate of this train (R118). -/
def rateEstimate (s : State) : Nat := possibleBaud .exact (decodeN s) (decodeS s)

/-- The state after a DECODE that succeeds (R113, R118 to R121). -/
def decodedState (s : State) : State :=
  { decodeIssued s with
    decWarnLen := warningDue s
    decResult := .ok
    baud := BitVec.ofNat 32 (readLut (nearestIdx (rateEstimate s)))
    baudIdx := BitVec.ofNat 4 (nearestIdx (rateEstimate s))
    payload := Memory.ofListFrom 0 (decodedBytes .exact s)
    payLen := decodeN s / 16
    payGen := s.draws + 1
    draws := s.draws + 1 }

/-- With a whole group and a positive mark sum the third of the three outcomes. -/
theorem exec_decode_ok {s : State} (hb : s.busy = false) (hn : decodeN s ≠ 0) (hsum : 0 < decodeS s) :
    exec .decode s = .next (decodedState s) := by
  have hz : thresholdZero .exact (analysedLen (decodeIssued s)) (markSum (decodeIssued s)) = false :=
    decide_eq_false ((markSum_eq_decodeS s).trans_ne hsum.ne')
  have hlen : (decodedBytes .exact s).length = decodeN s / 16 := by
    rw [length_decodedBytes, decodeN, Nat.mul_div_cancel_left _ (by decide)]
  have hrate : possibleBaud .exact (analysedLen { decodeIssued s with decWarnLen := warningDue s })
      (markSum { decodeIssued s with decWarnLen := warningDue s }) = rateEstimate s := by
    rw [markSum_eq_decodeS]
    rfl
  have hstored : storeDecoded .exact { decodeIssued s with decWarnLen := warningDue s } = decodedState s := by
    rw [storeDecoded, hrate, decodedState, ← hlen]
    generalize nearestIdx (rateEstimate s) = n
    rfl
  rw [exec_decode hb, decodeTrain_ok (s := decodeIssued s) hn hz, frameLengthWrong_eq_warningDue]
  exact congrArg Host.Outcome.next hstored

end Sys2Proof.Machine
end

section
/-! PROOFS. The bytes and the rate of a DECODE that succeeds: what they are, that one space decides one bit, that a common
factor and the levels decide nothing, and that the rate of a frame of 7 bytes or more comes back (41_decode.md rules R118 to R125). -/

namespace Sys2Proof.Machine

/-! ## The stored bytes -/

/-- Element `j` of the stored payload is the byte of group `j` (R120, R121). -/
theorem read_decodedBytes {s : State} {j : Nat} (hj : j < decodeN s / 16) :
    Memory.read? (Memory.ofListFrom 0 (decodedBytes .exact s)) j = some (groupByte .exact s j) := by
  have hgroup : (List.range (decodeN s / 16))[j]? = some j := by simp [hj]
  rw [Memory.read_ofListFrom, if_pos (Nat.zero_le j), Nat.sub_zero, decodedBytes, List.getElem?_map]
  exact congrArg (Option.map (groupByte .exact s)) hgroup

theorem readPayload_decodedState {s : State} {j : Nat} (hj : j < decodeN s / 16) :
    readPayload (decodedState s) j = groupByte .exact s j :=
  congrArg (Option.getD · (Config.payFill (s.draws + 1) j)) (read_decodedBytes hj)

/-- Bit `k` of the stored byte `j` is the decision on its space (R120). -/
theorem getLsbD_readPayload_decodedState {s : State} {j k : Nat} (hj : j < decodeN s / 16) (hk : k < 8) :
    (readPayload (decodedState s) j).getLsbD k = decodedBit s j k := by
  rw [readPayload_decodedState hj, getLsbD_groupByte_exact s j hk]

/-- Settles O22: the success is `decodedState`, whose rate is the nearest and whose bits are the decisions. -/
theorem decodeResults : Obligations.DecodeResults := by
  intro s hb hlen hsum
  have hn := decodeN_ne_zero hlen
  refine ⟨commandWord .decode, Memory.ofListFrom 0 (decodedBytes .exact s), s.draws + 1, s.draws + 1,
    nearestIdx (rateEstimate s), nearestIdx_isNearest _, exec_decode_ok hb hn hsum, fun j hj k hk => ?_⟩
  exact ⟨_, read_decodedBytes hj, getLsbD_groupByte_exact s j hk⟩

/-! ## Two trains side by side -/

/-- `s` with other contents of TRAIN. -/
def withContents (m : Memory Pulse) (g : Nat) (s : State) : State := { s with train := m, trainGen := g }

/-- The mark sum reads only the even entries of the analysed region (R116). -/
theorem decodeS_congr {s t : State} (hlen : t.trainLen = s.trainLen)
    (h : ∀ j < decodeN s / 2, trainDur t (2 + 2 * j) = trainDur s (2 + 2 * j)) : decodeS t = decodeS s := by
  have hn : decodeN t = decodeN s := by rw [decodeN, decodeN, hlen]
  rw [decodeS, decodeS, hn]
  exact congrArg List.sum (List.map_congr_left fun j hj => h j (List.mem_range.1 hj))

/-- Settles O23: the changed entry is no mark, so the threshold and every other decision stay. -/
theorem decodeMonotonicBit : Obligations.DecodeMonotonicBit := by
  intro s t g k hb hg hk hsum ht hother hshort hlong
  have htb : t.busy = false := ht ▸ hb
  have hlen : t.trainLen = s.trainLen := by rw [ht]
  have hN : decodeN t = decodeN s := by rw [decodeN, decodeN, hlen]
  have hS : decodeS t = decodeS s := decodeS_congr hlen fun j _ => hother _ (by omega)
  have hrate : rateEstimate t = rateEstimate s := by rw [rateEstimate, rateEstimate, hN, hS]
  have hn : decodeN s ≠ 0 := by omega
  refine ⟨_, _, exec_decode_ok hb hn hsum, exec_decode_ok htb (hN.trans_ne hn) (hS.symm ▸ hsum),
    congrArg (fun r => BitVec.ofNat 32 (readLut (nearestIdx r))) hrate,
    congrArg (fun r => BitVec.ofNat 4 (nearestIdx r)) hrate, congrArg (· / 16) hN, ?_, ?_, fun j hj q hq hne => ?_⟩
  · rw [getLsbD_readPayload_decodedState hg hk, hshort]
  · rw [getLsbD_readPayload_decodedState (hN ▸ hg) hk, decodedBit, hS, hN, decide_eq_true hlong]
  · have hgroup : j < decodeN s / 16 := hj
    rw [getLsbD_readPayload_decodedState (hN ▸ hgroup) hq, getLsbD_readPayload_decodedState hgroup hq, decodedBit, decodedBit, hS,
      hN, hother _ (by omega)]

/-- The valid bytes of a DECODE that succeeds, in the order of their groups (R121). -/
theorem payloadBytes_decodedState (s : State) :
    payloadBytes (decodedState s) = (List.range (decodeN s / 16)).map (groupByte .exact s) :=
  List.map_congr_left fun _ hj => readPayload_decodedState (List.mem_range.1 hj)

/-- A common positive factor of all durations cancels in every decision (R120). -/
theorem decodedBit_scaled {s t : State} {f g k : Nat} (hf : 0 < f) (hN : decodeN t = decodeN s)
    (hS : decodeS t = f * decodeS s)
    (hspace : trainDur t (2 + (16 * g + 2 * k + 1)) = f * trainDur s (2 + (16 * g + 2 * k + 1))) :
    decodedBit t g k = decodedBit s g k := by
  rw [decodedBit, decodedBit, hN, hS, hspace, Nat.mul_left_comm, Nat.mul_assoc]
  exact decide_eq_decide.2 (Nat.mul_le_mul_left_iff hf)

/-- Settles O24: marks and spaces are scaled alike, and all of them lie in the analysed region. -/
theorem decodeScaleInvariant : Obligations.DecodeScaleInvariant := by
  intro s t f hb hlen hsum hf ht hscaled
  have htb : t.busy = false := ht ▸ hb
  have hN : decodeN t = decodeN s := by rw [ht]; rfl
  have hn := decodeN_ne_zero hlen
  have hS : decodeS t = f * decodeS s := by
    rw [decodeS, decodeS, hN, ← List.sum_map_mul_left]
    refine congrArg List.sum (List.map_congr_left fun j hj => hscaled _ (by omega) ?_)
    have hmark : j < decodeN s / 2 := List.mem_range.1 hj
    omega
  refine ⟨_, _, exec_decode_ok hb hn hsum, exec_decode_ok htb (hN.trans_ne hn) (hS ▸ Nat.mul_pos hf hsum), ?_⟩
  rw [payloadBytes_decodedState, payloadBytes_decodedState, hN]
  refine List.map_congr_left fun j hj => BitVec.eq_of_getLsbD_eq fun k hk => ?_
  have hgroup : j < decodeN s / 16 := List.mem_range.1 hj
  rw [getLsbD_groupByte_exact t j hk, getLsbD_groupByte_exact s j hk]
  exact decodedBit_scaled hf hN hS (hscaled _ (by omega) (by omega))

/-! ## Levels -/

/-- With the same durations the same bytes, whatever the levels (R124). -/
theorem decodedBytes_withContents {m : Memory Pulse} {g : Nat} {s : State} (a : Arith)
    (h : ∀ i, trainDur (withContents m g s) i = trainDur s i) :
    decodedBytes a (withContents m g s) = decodedBytes a s := by
  have hS : decodeS (withContents m g s) = decodeS s := decodeS_congr rfl fun _ _ => h _
  refine List.map_congr_left fun j _ => BitVec.eq_of_getLsbD_eq fun k hk => ?_
  rw [getLsbD_groupByte a _ j hk, getLsbD_groupByte a s j hk, hS, h]
  rfl

theorem markSum_withContents {m : Memory Pulse} {g : Nat} {s : State}
    (h : ∀ i, trainDur (withContents m g s) i = trainDur s i) : markSum (withContents m g s) = markSum s := by
  rw [markSum_eq_decodeS, markSum_eq_decodeS]
  exact decodeS_congr rfl fun _ _ => h _

/-- So the same results are stored. -/
theorem storeDecoded_withContents {m : Memory Pulse} {g : Nat} {s : State} (a : Arith)
    (h : ∀ i, trainDur (withContents m g s) i = trainDur s i) :
    storeDecoded a (withContents m g s) = withContents m g (storeDecoded a s) := by
  have hn : analysedLen (withContents m g s) = analysedLen s := rfl
  rw [storeDecoded, storeDecoded, decodedBytes_withContents a h, markSum_withContents h, hn]
  generalize nearestIdx _ = r
  rfl

/-- DECODE reads the durations of TRAIN and nothing else of it, in every outcome (R124). -/
theorem decodeTrain_withContents {m : Memory Pulse} {g : Nat} {s : State} (a : Arith)
    (h : ∀ i, trainDur (withContents m g s) i = trainDur s i) :
    decodeTrain a (withContents m g s) = withContents m g (decodeTrain a s) := by
  have hS := markSum_withContents h
  by_cases hn : analysedLen s = 0
  · rw [decodeTrain_noGroup hn, decodeTrain_noGroup (s := withContents m g s) hn]
    rfl
  cases hz : thresholdZero a (analysedLen s) (markSum s) with
  | true =>
    rw [decodeTrain_zeroThreshold hn hz, decodeTrain_zeroThreshold (s := withContents m g s) hn (hS ▸ hz)]
    rfl
  | false =>
    rw [decodeTrain_ok hn hz, decodeTrain_ok (s := withContents m g s) hn (hS ▸ hz)]
    exact storeDecoded_withContents (s := { s with decWarnLen := frameLengthWrong s }) a h

/-- A refused DECODE reads no train, an accepted one only its durations (R83, R124). -/
theorem exec_decode_withContents {m : Memory Pulse} {g : Nat} {s : State}
    (h : ∀ i, trainDur (withContents m g s) i = trainDur s i) :
    ∃ u, exec .decode s = .next u ∧ exec .decode (withContents m g s) = .next (withContents m g u) := by
  cases hb : s.busy with
  | true =>
    rw [exec_decode_eq_issue, exec_decode_eq_issue, issue_busy hb, issue_busy (s := withContents m g s) hb]
    exact ⟨_, rfl, rfl⟩
  | false =>
    refine ⟨_, exec_decode hb, (exec_decode (s := withContents m g s) hb).trans (congrArg Host.Outcome.next ?_)⟩
    exact decodeTrain_withContents (s := decodeIssued s) .exact h

/-- Settles O25: `t` is `s` with other contents of TRAIN. -/
theorem decodeIgnoresLevels : Obligations.DecodeIgnoresLevels := by
  intro s t ht hdur
  have hswap : withContents t.train t.trainGen s = t := ht.symm
  obtain ⟨u, hs, hu⟩ := exec_decode_withContents (s := s) (m := t.train) (g := t.trainGen) (by rwa [hswap])
  exact ⟨u, _, hs, hswap ▸ hu, rfl⟩

/-! ## The rate of a frame -/

/-- An entry of the list is what TRAIN holds there. -/
theorem HoldsTrain.readTrain_eq {s : State} {l : List Pulse} {i : Nat} {q : Pulse} (h : HoldsTrain s l)
    (hi : l[i]? = some q) : readTrain s i = q := by
  obtain ⟨hlt, hq⟩ := List.getElem?_eq_some_iff.1 hi
  rw [h.2 i hlt, hq]

/-- A frame of `L` bytes is recorded as `16 L + 3` entries (R62). -/
theorem length_lineTrain (B : Nat) (p : List Byte) : (lineTrain B p).length = 16 * p.length + 3 := by
  have hbits : ((payloadBits p).flatMap (lineTrainBit B)).length = 16 * p.length := by
    simp [List.length_flatMap, lineTrainBit, ← Nat.mul_assoc, Nat.mul_comm]
  simp [lineTrain, hbits]

/-- The first entry of every data bit is a mark of one period (R65, section 1 of 95_test_vectors.md). -/
theorem getElem?_flatMap_lineTrainBit (B : Nat) {bits : List Bool} {j : Nat} (hj : j < bits.length) :
    (bits.flatMap (lineTrainBit B))[2 * j]? = some { level := 1, dur := BitVec.ofNat 32 (roundedPeriods 1 B) } := by
  induction bits generalizing j with
  | nil => cases hj
  | cons b bits ih =>
    cases j with
    | zero => rfl
    | succ j => exact ih (Nat.lt_of_succ_lt_succ hj)

/-- So every mark of the analysed region lasts one period. -/
theorem trainDur_mark {s : State} {B : Nat} {p : List Byte} {j : Nat} (h : HoldsTrain s (lineTrain B p))
    (hB : roundedPeriods 1 B < 2 ^ 32) (hj : j < 8 * p.length) : trainDur s (2 + 2 * j) = roundedPeriods 1 B := by
  have hmark := getElem?_flatMap_lineTrainBit B (bits := payloadBits p) (by rwa [length_payloadBits])
  have hentry : (lineTrain B p)[2 + 2 * j]? = some { level := 1, dur := BitVec.ofNat 32 (roundedPeriods 1 B) } := by
    rw [lineTrain, Nat.add_comm]
    exact (List.getElem?_append_left (List.getElem?_eq_some_iff.1 hmark).1).trans hmark
  rw [trainDur, h.readTrain_eq hentry, BitVec.toNat_ofNat, Nat.mod_eq_of_lt hB]

theorem decodeN_lineTrain {s : State} {B : Nat} {p : List Byte} (h : HoldsTrain s (lineTrain B p)) :
    decodeN s = 16 * p.length := by
  have hlen : s.trainLen = 16 * p.length + 3 := h.1.trans (length_lineTrain B p)
  rw [decodeN]
  omega

theorem decodeS_lineTrain {s : State} {B : Nat} {p : List Byte} (h : HoldsTrain s (lineTrain B p))
    (hB : roundedPeriods 1 B < 2 ^ 32) : decodeS s = 8 * p.length * roundedPeriods 1 B := by
  have hmarks : decodeN s / 2 = 8 * p.length := by
    rw [decodeN_lineTrain h]
    omega
  have hconst := List.map_congr_left fun j hj => trainDur_mark h hB (List.mem_range.1 hj)
  rw [decodeS, hmarks, hconst]
  simp

/-- Every rate of the table stands at some index (R63). -/
theorem exists_readLut_eq {B : Nat} (h : B ∈ lut) : ∃ i < 13, readLut i = B := by
  obtain ⟨i, hi, rfl⟩ := List.mem_iff_getElem.1 h
  exact ⟨i, hi, List.getD_eq_getElem lut 0 hi⟩

/-- One period of a table rate is a positive duration that TRAIN can hold. -/
theorem roundedPeriods_readLut : ∀ i < 13, 0 < roundedPeriods 1 (readLut i) ∧ roundedPeriods 1 (readLut i) < 2 ^ 32 := by
  decide

/-- R125 (d), section 1 (c) of 95_test_vectors.md: a table rate is the nearest to the estimate from a frame of 7 to 15 bytes,
whose marks sum to 8 periods a byte. -/
theorem nearestIdx_frameRate : ∀ L ∈ List.range' 7 9, ∀ i < 13,
    nearestIdx (possibleBaud .exact (16 * L) (8 * L * roundedPeriods 1 (readLut i))) = i := by
  decide

/-- Settles O27: the marks of the frame give its estimate, and the table rate nearest to that is the frame's. -/
theorem decodeRecoversFrameRate : Obligations.DecodeRecoversFrameRate := by
  intro s B p hb hB hmin hmax hheld
  obtain ⟨i, hi, rfl⟩ := exists_readLut_eq hB
  obtain ⟨hpos, hfits⟩ := roundedPeriods_readLut i hi
  have hN := decodeN_lineTrain hheld
  have hS := decodeS_lineTrain hheld hfits
  have hsum : 0 < decodeS s := hS ▸ Nat.mul_pos (by omega) hpos
  refine ⟨_, exec_decode_ok hb (by omega) hsum, congrArg (fun n => BitVec.ofNat 32 (readLut n)) ?_⟩
  rw [rateEstimate, hN, hS]
  exact nearestIdx_frameRate p.length (List.mem_range'_1.2 (by omega)) i hi

end Sys2Proof.Machine
end

section
/-! PROOFS. SNAP and SELRATE: the state a rate command leaves, that the midpoints of neighbouring rates bound the bands of X
(42_baud_lut.md rules R131 to R135). -/

namespace Sys2Proof.Machine

/-! ## The state a rate command leaves -/

/-- The state after a SNAP or SELRATE with the word `w` that selects entry `n` (R83, R131, R134). -/
def rateLoaded (w : Byte) (n : Nat) (s : State) : State :=
  { s with
    cmd := w, cmdErr := .accepted, opActive := opcodeField w
    baud := BitVec.ofNat 32 (readLut n), baudIdx := BitVec.ofNat 4 n }

theorem complete_selectRate_accept {s : State} (hb : s.busy = false) (w : Byte) (n : Nat) :
    complete (selectRate n (accept w s)) = rateLoaded w n s := by
  cases s
  subst hb
  rfl

/-- SNAP written while BUSY = 0 has run in that step (R83, R131). -/
theorem exec_snap {s : State} (hb : s.busy = false) :
    exec .snap s = .next (rateLoaded (commandWord .snap) (nearestIdx s.x.toNat) s) := by
  have hissue := issue_accept (i := .snap) (body := fun u => complete (snapRate u)) hb rfl
  rw [snapRate, accept_x, complete_selectRate_accept hb] at hissue
  exact hissue

/-- SELRATE with the index of a table entry has run in the step that accepts it (R83, R134). -/
theorem exec_selrate {s : State} {idx : Nibble} (hb : s.busy = false) (h : idx.toNat ≤ 12) :
    exec (.selrate idx) s = .next (rateLoaded (commandWord (.selrate idx)) idx.toNat s) := by
  have hlegal : argumentLegal (.selrate idx) = true := decide_eq_true (Nat.lt_succ_of_le h)
  have hissue := issue_accept (body := fun u => complete (selectRate idx.toNat u)) hb hlegal
  rw [complete_selectRate_accept hb] at hissue
  exact hissue

/-- Settles O28: the entry is the one the selector finds. -/
theorem snapTakesFirstNearest : Obligations.SnapTakesFirstNearest := by
  intro s hb
  exact ⟨commandWord .snap, nearestIdx s.x.toNat, nearestIdx_isNearest _, exec_snap hb⟩

/-- Settles O30: the 13 entries are loaded, the three reserved indices refused. -/
theorem selrateLoadsTableEntry : Obligations.SelrateLoadsTableEntry := by
  intro s idx hb
  refine ⟨fun hidx => ⟨commandWord (.selrate idx), ?_⟩, exec_selrate_reserved hb⟩
  have hop : opcodeField (commandWord (.selrate idx)) = 4 := opcodeField_commandOf 0x4 idx
  rw [exec_selrate hb hidx, rateLoaded, hop, BitVec.ofNat_toNat, BitVec.setWidth_eq]
  rfl

/-! ## The bands of X -/

/-- The rates of the table rise with the index (R63). -/
theorem readLut_strictMono : ∀ j ≤ 12, ∀ i < j, readLut i < readLut j := by decide

theorem readLut_mono {i j : Nat} (hij : i ≤ j) (hj : j ≤ 12) : readLut i ≤ readLut j := by
  rcases hij.lt_or_eq with hlt | rfl
  · exact (readLut_strictMono j hj i hlt).le
  · exact le_rfl

/-- Of two entries the lower is at least as near to `x` exactly when `x` is not above their midpoint (R133). -/
theorem rateDistance_le_iff {x i j : Nat} (hij : i < j) (hj : j ≤ 12) :
    rateDistance x i ≤ rateDistance x j ↔ 2 * x ≤ readLut i + readLut j := by
  have hlt := readLut_strictMono j hj i hij
  rw [← absDiff_readLut, ← absDiff_readLut, absDiff, absDiff]
  omega

/-- `x` is not above the midpoint of the entries `j` and `j + 1` exactly when an entry up to `j` is chosen (R132, R133). -/
theorem le_midpoint_iff {x m j : Nat} (hj : j < 12) (hm : 2 * m = readLut j + readLut (j + 1)) :
    x ≤ m ↔ nearestIdx x ≤ j := by
  obtain ⟨hn, hleast, hfirst⟩ := nearestIdx_isNearest x
  constructor
  · intro hx
    by_contra hjn
    have hlt : j < nearestIdx x := not_le.1 hjn
    have hfar := (rateDistance_le_iff hlt hn).not.1 (not_le.2 (hfirst j hlt))
    have hrate : readLut (j + 1) ≤ readLut (nearestIdx x) := readLut_mono hlt hn
    omega
  · intro hnj
    have hnear : 2 * x ≤ readLut (nearestIdx x) + readLut (j + 1) :=
      (rateDistance_le_iff (Nat.lt_succ_of_le hnj) hj).1 (hleast (j + 1) hj)
    have hrate := readLut_mono hnj hj.le
    omega

/-- Settles O29: each limit of a band is a midpoint, so the chain of bands is one of indices, compared entry by entry. -/
theorem snapBands : Obligations.SnapBands := by
  intro s hb
  refine ⟨_, exec_snap hb, ?_⟩
  have limit := fun m j => le_midpoint_iff (x := s.x.toNat) (m := m) (j := j)
  simp only [rateLoaded, limit 205 0 (by decide) rfl, limit 450 1 (by decide) rfl, limit 900 2 (by decide) rfl,
    limit 1800 3 (by decide) rfl, limit 3600 4 (by decide) rfl, limit 7200 5 (by decide) rfl,
    limit 12000 6 (by decide) rfl, limit 16800 7 (by decide) rfl, limit 28800 8 (by decide) rfl,
    limit 48000 9 (by decide) rfl, limit 86400 10 (by decide) rfl, limit 121600 11 (by decide) rfl]
  have hn := nearestIdx_le s.x.toNat
  generalize nearestIdx s.x.toNat = n at hn ⊢
  revert n
  decide

end Sys2Proof.Machine
end

section
/-! PROOFS. The issue of ENCODE: its three outcomes as next states, which rates emit, and the frame that follows
(43_encode.md rules R142 to R148, R152). -/

namespace Sys2Proof.Machine

/-- The sign of the period is that of the engine's one signed intermediate (R143, R175). -/
theorem nominalLessComp_pos_iff {s : State} (hbaud : s.baud ≠ 0) : 0 < nominalLessComp s ↔ 0 < periodNumerator s := by
  rw [← compensatedPeriod_eq hbaud]
  refine ⟨fun h => ?_, compensatedPeriod_pos hbaud⟩
  by_contra hnum
  have hle : (periodNumerator s : Rat) ≤ 0 := by exact_mod_cast not_lt.1 hnum
  exact absurd h (not_lt.2 (div_nonpos_of_nonpos_of_nonneg hle (Nat.cast_nonneg _)))

/-! ## The three outcomes -/

/-- ENCODE written while BUSY = 0 is accepted and issued (R83, R148). -/
theorem exec_encode {s : State} (hb : s.busy = false) :
    exec .encode s = .next (encodeStart (accept (commandWord .encode) s)) :=
  issue_accept (i := .encode) (body := encodeStart) hb rfl

/-- The state after an ENCODE that ended at its issue with the result `r`: BUSY is 0 as before (R83, R144). -/
def encodeRefused (r : EncResult) (s : State) : State :=
  { s with cmd := commandWord .encode, cmdErr := .accepted, opActive := 5, encResult := r }

theorem complete_accept_encode {s : State} (hb : s.busy = false) (r : EncResult) :
    complete { accept (commandWord .encode) s with encResult := r } = encodeRefused r s := by
  cases s
  subst hb
  rfl

/-- The first condition: a rate of 0 (R144). -/
theorem exec_encode_zeroRate {s : State} (hb : s.busy = false) (hbaud : s.baud = 0) :
    exec .encode s = .next (encodeRefused .zeroRate s) := by
  rw [exec_encode hb, ← complete_accept_encode hb]
  exact congrArg Host.Outcome.next (if_pos hbaud)

/-- The second: a period that is not positive (R144). -/
theorem exec_encode_underflow {s : State} (hb : s.busy = false) (hbaud : s.baud ≠ 0) (hp : periodNumerator s ≤ 0) :
    exec .encode s = .next (encodeRefused .periodUnderflow s) := by
  rw [exec_encode hb, ← complete_accept_encode hb]
  exact congrArg Host.Outcome.next ((if_neg hbaud).trans (if_pos hp))

/-- The state after an ENCODE that started an emission: ENC stands at the start mark (R143, R148). -/
def encodeStarted (s : State) : State :=
  { s with
    cmd := commandWord .encode, cmdErr := .accepted, opActive := 5, busy := true, encResult := .none
    encPeriod := nominalLessComp s, encByte := 0, encBit := 0, encPhase := .startMark }

/-- Else the emission starts. -/
theorem exec_encode_starts {s : State} (hb : s.busy = false) (hbaud : s.baud ≠ 0) (hp : 0 < nominalLessComp s) :
    exec .encode s = .next (encodeStarted s) :=
  (exec_encode hb).trans
    (congrArg Host.Outcome.next (encodeStart_starts (s := accept (commandWord .encode) s) hbaud hp))

/-- Settles O31: the two conditions are the first two outcomes. -/
theorem encodeRefusesUnusableRate : Obligations.EncodeRefusesUnusableRate := by
  intro s hb
  refine ⟨fun hzero => ⟨commandWord .encode, exec_encode_zeroRate hb hzero⟩, fun hbaud hp => ⟨commandWord .encode, ?_⟩⟩
  exact exec_encode_underflow hb hbaud (not_lt.1 ((nominalLessComp_pos_iff hbaud).not.1 (not_lt.2 hp)))

/-- Settles O32: the third. -/
theorem encodeLatchesPeriod : Obligations.EncodeLatchesPeriod := fun _ hb hbaud hp =>
  ⟨commandWord .encode, exec_encode_starts hb hbaud hp⟩

/-! ## The rates that emit -/

/-- ENCODE is busy after its issue exactly when the rate is not 0 and the numerator of the period is positive, and a numerator
that is not positive is reported (R143, R144). -/
theorem exec_encode_emits_iff {s : State} (hb : s.busy = false) :
    ∃ t, exec .encode s = .next t ∧ (t.busy = true ↔ s.baud ≠ 0 ∧ 0 < periodNumerator s) ∧
      (s.baud ≠ 0 → periodNumerator s ≤ 0 → t.encResult = .periodUnderflow) := by
  have hidle : ∀ r, (encodeRefused r s).busy ≠ true := fun _ => Bool.eq_false_iff.1 hb
  by_cases hbaud : s.baud = 0
  · exact ⟨_, exec_encode_zeroRate hb hbaud, iff_of_false (hidle _) fun h => h.1 hbaud, fun h => absurd hbaud h⟩
  by_cases hp : periodNumerator s ≤ 0
  · exact ⟨_, exec_encode_underflow hb hbaud hp, iff_of_false (hidle _) fun h => not_lt.2 hp h.2, fun _ _ => rfl⟩
  · have hpos := not_le.1 hp
    exact ⟨_, exec_encode_starts hb hbaud ((nominalLessComp_pos_iff hbaud).2 hpos), iff_of_true rfl ⟨hbaud, hpos⟩,
      fun _ h => absurd h hp⟩

/-- Settles O35: the numerator is `1_000_000 - 100 BAUD` with the offset 100, and `1_000_000` with the offset 0. -/
theorem ratesThatEmit : Obligations.RatesThatEmit := by
  intro s hb
  obtain ⟨t, hexec, hbusy, hunder⟩ := exec_encode_emits_iff hb
  have hbaud : s.baud ≠ 0 ↔ 1 ≤ s.baud.toNat := by
    rw [Ne, ← BitVec.toNat_inj, Nat.one_le_iff_ne_zero]
    rfl
  rw [hbaud] at hbusy hunder
  refine ⟨t, hexec, fun hcomp => ?_, fun hcomp => ?_⟩
  · have hnum : periodNumerator s = 1000000 - 100 * s.baud.toNat := by
      rw [periodNumerator, hcomp]
      rfl
    rw [hnum] at hbusy hunder
    exact ⟨by rw [hbusy]; omega, fun hhigh => hunder (by omega) (by omega)⟩
  · have hnum : periodNumerator s = 1000000 := by
      rw [periodNumerator, hcomp]
      simp
    rw [hbusy, hnum]
    omega

/-! ## The emission -/

/-- Settles O33: from the start mark ENC emits the whole frame. -/
theorem encodeEmitsTheFrame : Obligations.EncodeEmitsTheFrame := by
  intro s hb hbaud hp ha
  obtain ⟨j, k, hframe⟩ := run_frame (s := encodeStarted s) ha rfl rfl
  refine ⟨_, commandWord .encode, j, k, exec_encode_starts hb hbaud hp, hframe.trans ?_⟩
  cases s
  subst hb
  rfl

end Sys2Proof.Machine
end

section
/-! PROOFS. The event list of a frame: its length, its alternation and its duration are those of its symbols, one after the
other (30_encoding.md rule R65, 43_encode.md rules R145, R147). -/

namespace Sys2Proof.Machine

theorem length_flatMap_symbolEvents (P : Rat) (l : List Instr) : (l.flatMap (symbolEvents P)).length = 2 * l.length := by
  simp [List.length_flatMap, symbolEvents, Nat.mul_comm]

/-- Every symbol is a mark and then a space, so carriers stand at the even places and gaps at the odd ones. -/
theorem kind_flatMap_symbolEvents (P : Rat) {l : List Instr} {i : Nat} (h : i < (l.flatMap (symbolEvents P)).length) :
    (l.flatMap (symbolEvents P))[i].kind = if i % 2 = 0 then .carrier else .gap := by
  induction l generalizing i with
  | nil => cases h
  | cons a l ih =>
    match i with
    | 0 | 1 => rfl
    | i + 2 =>
      rw [Nat.add_mod_right]
      exact ih (Nat.lt_of_add_lt_add_right h)

/-- A symbol lasts the periods of its pattern. -/
theorem totalDur_symbolEvents (P : Rat) (i : Instr) : totalDur (symbolEvents P i) = (linePattern i).length * P := by
  simp [totalDur, symbolEvents, linePattern, add_mul]

theorem totalDur_append (a b : List Emission) : totalDur (a ++ b) = totalDur a + totalDur b := by simp [totalDur]

/-- So do symbols one after the other. -/
theorem totalDur_flatMap_symbolEvents (P : Rat) (l : List Instr) :
    totalDur (l.flatMap (symbolEvents P)) = (symbolsPattern l).length * P := by
  induction l with
  | nil => simp [totalDur, symbolsPattern]
  | cons i l ih =>
    rw [List.flatMap_cons, totalDur_append, totalDur_symbolEvents, ih, symbolsPattern_cons, List.length_append, Nat.cast_add,
      add_mul]

/-- Settles O34: a frame of `L` bytes has `8 L + 2` symbols and lasts `13 + 16 L + 2 ones` periods. -/
theorem frameEventsCountAndTotal : Obligations.FrameEventsCountAndTotal := by
  intro P p
  obtain ⟨hsymbols, -, hperiods⟩ := frameLengthInPeriods p
  rw [frameEvents_eq]
  refine ⟨?_, fun i hi => kind_flatMap_symbolEvents P hi, ?_⟩
  · rw [length_flatMap_symbolEvents, hsymbols]
    omega
  · rw [totalDur_flatMap_symbolEvents, hperiods]
    push_cast
    rfl

end Sys2Proof.Machine
end

section
/-! PROOFS. ENC at work comes to its end from every phase: at most two events for every data bit still to send, and four for START
and STOP (43_encode.md rule R148, 20_memory.md rule R48). -/

namespace Sys2Proof.Machine

/-- Left to itself, ENCODE has completed OK after `k` steps. -/
def CompletesIn (k : Nat) (s : State) : Prop :=
  ∃ t, runSteps k s = .next t ∧ t.busy = false ∧ t.encResult = .ok ∧ t.encPhase = .idle

/-- A run leads to completion if its end does. -/
theorem completesIn_add {s t : State} {m n : Nat} (hrun : runSteps m s = .next t) (h : CompletesIn n t) :
    CompletesIn (m + n) s := by
  obtain ⟨u, hrest, hend⟩ := h
  exact ⟨u, (runSteps_add hrun).trans hrest, hend⟩

theorem completesIn_of_encodeStep {s : State} {n : Nat} (ha : s.agenda = []) (hp : s.encPhase ≠ .idle)
    (h : CompletesIn n (encodeStep s)) : CompletesIn (1 + n) s := completesIn_add (runSteps_one (step_encoder ha hp)) h

/-- With `m` data bits left ENC completes after their `2 m` events and the two of STOP. -/
theorem completesIn_of_left {s : State} {m : Nat} (ha : s.agenda = []) (hp : s.encPhase = phaseWithLeft m)
    (hpos : m ≠ 0 → encPosition s + m = 8 * s.payLen) : CompletesIn (2 * m + 2) s := by
  obtain ⟨j, k, hbits⟩ := run_bits (n := 8 * s.payLen - m) ha hp (by omega) (by omega)
  exact completesIn_add hbits ⟨_, run_stop ha rfl, rfl, rfl, rfl⟩

/-- After the gap of START all data bits are left. -/
theorem completesIn_of_startGap {s : State} (ha : s.agenda = []) (hp : s.encPhase = .startGap) (hpos : encPosition s = 0) :
    CompletesIn (1 + (2 * (8 * s.payLen) + 2)) s := by
  refine completesIn_of_encodeStep ha (by simp [hp]) ?_
  rw [encodeStep_startGap hp]
  refine completesIn_of_left (s := { emitSpace .lineStart s with encPhase := _ }) ha ?_ fun _ => ?_
  · rcases Nat.eq_zero_or_pos s.payLen with h | h
    · simp [phaseWithLeft, h]
    · simp [phaseWithLeft, h, h.ne']
  · exact (congrArg (· + _) hpos).trans (Nat.zero_add _)

/-- After the gap of a data bit those behind it are left. -/
theorem completesIn_of_bitGap {s : State} {m : Nat} (ha : s.agenda = []) (hp : s.encPhase = .bitGap)
    (hpos : encPosition s + 1 + m = 8 * s.payLen) : CompletesIn (1 + (2 * m + 2)) s := by
  refine completesIn_of_encodeStep ha (by simp [hp]) ?_
  obtain ⟨j, k, hnext, hat⟩ := nextBit_moves (s := emitSpace (currentSymbol s) s) hpos
  rw [encodeStep_bitGap hp, hnext]
  exact completesIn_of_left ha rfl fun hm => (congrArg (· + m) (hat hm)).trans hpos

/-- The last event. -/
theorem completesIn_of_stopGap {s : State} (ha : s.agenda = []) (hp : s.encPhase = .stopGap) : CompletesIn 1 s := by
  refine ⟨_, runSteps_one (step_encoder ha (by simp [hp])), ?_⟩
  rw [encodeStep_stopGap hp]
  exact ⟨rfl, rfl, rfl⟩

/-- At a data bit of the payload ENC stands at one of its positions (R33, R48). -/
theorem EngineInv.encPosition_lt {s : State} (hi : EngineInv s) (hp : s.encPhase = .bitMark ∨ s.encPhase = .bitGap) :
    encPosition s < 8 * s.payLen := by
  have hbyte := hi.encByte hp
  have hbit := s.encBit.isLt
  rw [encPosition]
  omega

/-- Before the first data bit ENC stands at the first position (R148). -/
theorem EngineInv.encPosition_eq_zero {s : State} (hi : EngineInv s) (hp : s.encPhase = .startMark ∨ s.encPhase = .startGap) :
    encPosition s = 0 := by
  obtain ⟨hbyte, hbit⟩ := hi.encFirst hp
  rw [encPosition, hbyte, hbit]
  rfl

/-- From every phase at most a whole frame is left. -/
theorem EngineInv.encode_completes {s : State} (hi : EngineInv s) (he : s.encPhase ≠ .idle) (ha : s.agenda = []) :
    ∃ k ≤ 4 + 16 * s.payLen, CompletesIn k s := by
  cases hp : s.encPhase with
  | idle => exact absurd hp he
  | startMark =>
    obtain ⟨j, k, hframe⟩ := run_frame ha hp (hi.encPosition_eq_zero (.inl hp))
    exact ⟨_, le_rfl, _, hframe, rfl, rfl, rfl⟩
  | startGap => exact ⟨_, by omega, completesIn_of_startGap ha hp (hi.encPosition_eq_zero (.inr hp))⟩
  | bitMark =>
    have hlt := hi.encPosition_lt (.inl hp)
    have hphase : s.encPhase = phaseWithLeft (8 * s.payLen - encPosition s) := by rw [hp, phaseWithLeft, if_neg (by omega)]
    exact ⟨_, by omega, completesIn_of_left ha hphase (by omega)⟩
  | bitGap =>
    have hlt := hi.encPosition_lt (.inr hp)
    exact ⟨_, by omega, completesIn_of_bitGap (m := 8 * s.payLen - encPosition s - 1) ha hp (by omega)⟩
  | stopMark => exact ⟨_, by omega, completesIn_of_left (m := 0) ha hp (absurd rfl)⟩
  | stopGap => exact ⟨_, by omega, completesIn_of_stopGap ha hp⟩

/-- Settles O36: the payload has at most 15 bytes. -/
theorem encodeAlwaysCompletes : Obligations.EncodeAlwaysCompletes := by
  intro s hi he ha
  obtain ⟨k, hk, t, hrun, hend⟩ := hi.encode_completes he ha
  have hlen : s.payLen ≤ 15 := hi.payLen
  exact ⟨k, t, by omega, hrun, hend⟩

end Sys2Proof.Machine
end

section
/-! PROOFS. DECODE inverts the frame: the spaces of an ideal line's train are the bits of the payload, and in either arithmetic the
threshold divides the two lengths of space (41_decode.md rules R120 to R123, 43_encode.md rule R150). -/

namespace Sys2Proof.Machine

/-! ## The spaces of the train -/

/-- The second entry of every data bit is its space: three periods for a 1, one for a 0 (R65). -/
theorem getElem?_flatMap_lineTrainBit_space (B : Nat) {bits : List Bool} {j : Nat} (hj : j < bits.length) :
    (bits.flatMap (lineTrainBit B))[2 * j + 1]? =
      some { level := 0, dur := BitVec.ofNat 32 (roundedPeriods (if bits[j] then 3 else 1) B) } := by
  induction bits generalizing j with
  | nil => cases hj
  | cons b bits ih =>
    cases j with
    | zero => rfl
    | succ j => exact ih (Nat.lt_of_succ_lt_succ hj)

/-- So the space of data bit `j`, as DECODE finds it in the train. -/
theorem trainDur_space {s : State} {B : Nat} {p : List Byte} {j : Nat} (h : HoldsTrain s (lineTrain B p))
    (hB : ∀ b : Bool, roundedPeriods (if b then 3 else 1) B < 2 ^ 32) (hj : j < (payloadBits p).length) :
    trainDur s (2 + (2 * j + 1)) = roundedPeriods (if (payloadBits p)[j] then 3 else 1) B := by
  have hspace := getElem?_flatMap_lineTrainBit_space B hj
  have hentry := (List.getElem?_append_left (l₂ := [{ level := 1, dur := BitVec.ofNat 32 (roundedPeriods 1 B) }])
    (List.getElem?_eq_some_iff.1 hspace).1).trans hspace
  rw [trainDur, h.readTrain_eq (i := 2 + (2 * j + 1)) (by rw [lineTrain, Nat.add_comm]; exact hentry), BitVec.toNat_ofNat,
    Nat.mod_eq_of_lt (hB _)]

/-- One and three periods of a table rate are durations that TRAIN can hold. -/
theorem roundedPeriods_space_fits : ∀ i < 13, ∀ b : Bool, roundedPeriods (if b then 3 else 1) (readLut i) < 2 ^ 32 := by
  decide

/-! ## The decisions -/

/-- R150, section 1 (a) of 95_test_vectors.md: at every table rate and for a frame of 1 to 15 bytes the threshold is not 0, three
periods are at or above it and one period is below. -/
theorem threshold_divides_spaces (a : Arith) : ∀ L ∈ List.range' 1 15, ∀ i < 13,
    thresholdZero a (16 * L) (8 * L * roundedPeriods 1 (readLut i)) = false ∧
    ∀ b : Bool, isLong a (16 * L) (8 * L * roundedPeriods 1 (readLut i)) (roundedPeriods (if b then 3 else 1) (readLut i)) = b := by
  cases a with
  | exact => decide
  | trunc => decide

/-! ## The stored bytes -/

theorem length_decodedBytes_eq_groups (a : Arith) (s : State) : (decodedBytes a s).length = decodeN s / 16 := by
  rw [length_decodedBytes, decodeN, Nat.mul_div_cancel_left _ (by decide)]

/-- Byte `j` that a successful DECODE stores is that of group `j`, in either arithmetic and whatever rate is selected (R121). -/
theorem readPayload_storeDecoded (a : Arith) {s : State} {j : Nat} (hj : j < decodeN s / 16) :
    readPayload (storeDecoded a s) j = groupByte a s j := by
  rw [← length_decodedBytes_eq_groups a] at hj
  rw [storeDecoded]
  generalize nearestIdx _ = r
  refine (readPayload_storePayload (decodedBytes a s) (selectRate r s) j hj).trans ?_
  simp [decodedBytes]

/-- Counted through all bytes, bit `n` is the decision on space `n` (R71, R120). -/
theorem dataBit_storeDecoded (a : Arith) {s : State} {n : Nat} (hn : n < 8 * (decodeN s / 16)) :
    dataBit (storeDecoded a s) n = isLong a (decodeN s) (decodeS s) (trainDur s (2 + (2 * n + 1))) := by
  have hentry : 16 * (n / 8) + 2 * (n % 8) + 1 = 2 * n + 1 := by omega
  rw [dataBit, readPayload_storeDecoded a (by omega), getLsbD_groupByte a s _ (Nat.mod_lt n (by decide)), hentry]

/-- So the bytes are a payload of that many groups whose bits are the decisions. -/
theorem payloadBytes_storeDecoded (a : Arith) {s : State} {p : List Byte} (hN : decodeN s = 16 * p.length)
    (hbits : ∀ n (h : n < (payloadBits p).length),
      isLong a (decodeN s) (decodeS s) (trainDur s (2 + (2 * n + 1))) = (payloadBits p)[n]) :
    payloadBytes (storeDecoded a s) = p := by
  have hgroups : decodeN s / 16 = p.length := by omega
  have hlen : (storeDecoded a s).payLen = p.length := by
    rw [storeDecoded, storePayload_payLen, length_decodedBytes_eq_groups, hgroups]
  apply payloadBits_injective
  rw [payloadBits_payloadBytes, hlen]
  refine List.ext_getElem (by simp) fun n hn hn' => ?_
  have hroom : n < 8 * (decodeN s / 16) := by rwa [hgroups, ← length_payloadBits]
  rw [List.getElem_map, List.getElem_range, dataBit_storeDecoded a hroom, hbits n hn']

/-! ## The frame comes back -/

/-- A frame leaves the one entry of its stop mark over, which is the remainder 1 (R113). -/
theorem frameLengthWrong_lineTrain {s : State} {B : Nat} {p : List Byte} (hstop : s.cfgStopRem = 1)
    (hheld : HoldsTrain s (lineTrain B p)) : frameLengthWrong s = false := by
  have hlen : s.trainLen = 16 * p.length + 3 := hheld.1.trans (length_lineTrain B p)
  have hone : s.cfgStopRem.toNat = 1 := by rw [hstop]; rfl
  rw [frameLengthWrong_eq_warningDue, warningDue, hlen, hone]
  exact decide_eq_false (by omega)

/-- With decisions that tell one period from three the payload of a frame is stored. -/
theorem payloadBytes_storeDecoded_lineTrain (a : Arith) {s : State} {B : Nat} {p : List Byte}
    (hheld : HoldsTrain s (lineTrain B p)) (hfits : ∀ b : Bool, roundedPeriods (if b then 3 else 1) B < 2 ^ 32)
    (hlong : ∀ b : Bool, isLong a (16 * p.length) (8 * p.length * roundedPeriods 1 B)
      (roundedPeriods (if b then 3 else 1) B) = b) : payloadBytes (storeDecoded a s) = p := by
  have hN := decodeN_lineTrain hheld
  refine payloadBytes_storeDecoded a hN fun n hn => ?_
  rw [trainDur_space hheld hfits hn, hN, decodeS_lineTrain hheld (hfits false), hlong]

/-- The train of a frame at a table rate decodes to its payload with no warning, in either arithmetic (R150). -/
theorem decodeTrain_lineTrain (a : Arith) {s : State} {B : Nat} {p : List Byte} (hstop : s.cfgStopRem = 1) (hB : B ∈ lut)
    (hmin : 1 ≤ p.length) (hmax : p.length ≤ 15) (hheld : HoldsTrain s (lineTrain B p)) :
    (decodeTrain a s).decResult = .ok ∧ (decodeTrain a s).decWarnLen = false ∧ payloadBytes (decodeTrain a s) = p := by
  obtain ⟨i, hi, rfl⟩ := exists_readLut_eq hB
  have hfits := roundedPeriods_space_fits i hi
  obtain ⟨hzero, hlong⟩ := threshold_divides_spaces a p.length (List.mem_range'_1.2 (by omega)) i hi
  have hN : analysedLen s = 16 * p.length := decodeN_lineTrain hheld
  have hS := (markSum_eq_decodeS s).trans (decodeS_lineTrain hheld (hfits false))
  rw [decodeTrain_ok (by omega) (by rw [hN, hS, hzero]), frameLengthWrong_lineTrain hstop hheld]
  obtain ⟨hresult, hwarn, -⟩ := storeDecoded_keeps a { s with decWarnLen := false }
  exact ⟨hresult, hwarn, payloadBytes_storeDecoded_lineTrain (s := { s with decWarnLen := false }) a hheld hfits hlong⟩

/-- Settles O26: the state in which DECODE has been accepted holds the same train. -/
theorem decodeRecoversFramePayload : Obligations.DecodeRecoversFramePayload := by
  intro s B p hb hstop hB hmin hmax hheld
  refine ⟨⟨_, exec_decode hb, ?_⟩, fun a => decodeTrain_lineTrain a hstop hB hmin hmax hheld⟩
  exact decodeTrain_lineTrain (s := decodeIssued s) .exact hstop hB hmin hmax hheld

end Sys2Proof.Machine
end

section
/-! PROOFS. VALIDATE: the 8-bit accumulator holds the sum modulo 256, and the state the command leaves (44_checksum.md rules R155
to R158). -/

namespace Sys2Proof.Machine

/-! ## The sum -/

/-- The last byte is not part of the sum (R156). -/
theorem checksum_concat (body : List Byte) (b : Byte) : checksum (body ++ [b]) = body.sum := by
  rw [checksum, List.dropLast_concat, List.sum_eq_foldl]

/-- Reducing once at the end gives what an accumulator that wraps gives (R156). -/
theorem sum_bytes_eq_ofNat (l : List Byte) : l.sum = BitVec.ofNat 8 ((l.map BitVec.toNat).sum % 256) := by
  have hwrap : l.sum = BitVec.ofNat 8 (l.map BitVec.toNat).sum := by
    induction l with
    | nil => rfl
    | cons b l ih =>
      rw [List.sum_cons, List.map_cons, List.sum_cons, BitVec.ofNat_add, ← ih, BitVec.ofNat_toNat, BitVec.setWidth_eq]
  exact hwrap.trans (BitVec.eq_of_toNat_eq (Nat.mod_mod _ _).symm)

/-- A payload that is not empty is its bytes but the last, and the last byte (R42). -/
theorem payloadBytes_eq_concat {s : State} (h : 0 < s.payLen) :
    payloadBytes s = (List.range (s.payLen - 1)).map (readPayload s) ++ [readPayload s (s.payLen - 1)] := by
  obtain ⟨n, hn⟩ := Nat.exists_eq_add_of_lt h
  simp [payloadBytes, hn, List.range_succ]

/-- CHK_CALC as a sum of natural numbers (R156). -/
theorem checksum_payloadBytes {s : State} (h : 0 < s.payLen) :
    checksum (payloadBytes s) =
      BitVec.ofNat 8 (((List.range (s.payLen - 1)).map fun i => (readPayload s i).toNat).sum % 256) := by
  rw [payloadBytes_eq_concat h, checksum_concat, sum_bytes_eq_ofNat, List.map_map]
  rfl

/-! ## The state VALIDATE leaves -/

/-- The state in which VALIDATE has been accepted, but for BUSY, which it leaves at 0 in the end (R83, R155). -/
def validateIssued (s : State) : State :=
  { s with cmd := commandWord .validate, cmdErr := .accepted, opActive := 6 }

/-- VALIDATE neither reads nor writes BUSY. -/
theorem complete_validatePayload (s : State) : complete (validatePayload s) = validatePayload (complete s) := by
  by_cases h : s.payLen = 0
  · rw [validatePayload_empty h, validatePayload_empty (s := complete s) h]
    rfl
  · rw [validatePayload_compare h, validatePayload_compare (s := complete s) h]
    rfl

/-- VALIDATE written while BUSY = 0 has run in that step (R83, R155). -/
theorem exec_validate {s : State} (hb : s.busy = false) : exec .validate s = .next (validatePayload (validateIssued s)) := by
  have hissue := issue_accept (i := .validate) (body := fun t => complete (validatePayload t)) hb rfl
  have hfree : complete (accept (commandWord .validate) s) = validateIssued s := by
    cases s
    subst hb
    rfl
  rw [complete_validatePayload, hfree] at hissue
  exact hissue

/-- Settles O40: the accumulator holds the sum of all bytes but the last, and the registers are those of the comparison. -/
theorem validateComparesSum : Obligations.ValidateComparesSum := by
  intro s hb hlen
  refine ⟨commandWord .validate, ?_⟩
  rw [exec_validate hb, validatePayload_compare (s := validateIssued s) hlen.ne',
    checksum_payloadBytes (s := validateIssued s) hlen]
  rfl

/-- Settles O41: an empty payload has no last byte to compare. -/
theorem validateEmptyPayload : Obligations.ValidateEmptyPayload := by
  intro s hb hlen
  refine ⟨commandWord .validate, ?_⟩
  rw [exec_validate hb, validatePayload_empty (s := validateIssued s) hlen]
  rfl

end Sys2Proof.Machine
end

section
/-! PROOFS. BUILD: what it returns and what it reports, from the results of its four fields, and why VALIDATE accepts every payload
it returns (45_payload_helper.md rules R164 to R173). -/

namespace Sys2Proof.Machine

/-! ## The fields -/

/-- R167. -/
theorem modeByte_known : ∀ m ∈ [(ModeSym.heat, (0x01 : Byte)), (.dry, 0x02), (.cool, 0x03), (.feel, 0x08)],
    modeByte m.1 = .ok m.2 := by decide

/-- R169, the fan half. -/
theorem fanCode_known : ∀ f ∈ [(FanSym.auto, (0x0 : Byte)), (.f1, 0x2), (.f2, 0x3), (.f3, 0x5)],
    fanCode f.1 = .ok f.2 := by decide

/-- R169, the vane half. -/
theorem vaneCode_known : ∀ v ∈ [(VaneSym.auto, (0x0 : Byte)), (.v1, 0x8), (.v2, 0x10), (.v3, 0x18), (.v4, 0x20), (.v5, 0x28),
    (.cruise, 0x38)], vaneCode v.1 = .ok v.2 := by decide

theorem exists_modeByte_eq_ok {m : ModeSym} (h : ∀ n, m ≠ .unknown n) : ∃ b, modeByte m = .ok b := by
  cases m with
  | heat | dry | cool | feel => exact ⟨_, rfl⟩
  | unknown n => exact absurd rfl (h n)

theorem exists_fanCode_eq_ok {f : FanSym} (h : ∀ n, f ≠ .unknown n) : ∃ b, fanCode f = .ok b := by
  cases f with
  | auto | f1 | f2 | f3 => exact ⟨_, rfl⟩
  | unknown n => exact absurd rfl (h n)

/-- The subtraction does not go below 0, so the byte is that of the integer (R168). -/
theorem temperatureByte_inRange {t : Int} (hlo : 16 ≤ t) (hhi : t ≤ 31) :
    temperatureByte t = .ok (BitVec.ofInt 8 (31 - t)) := by
  rw [temperatureByte, if_pos ⟨hlo, hhi⟩, ← BitVec.ofInt_natCast, Int.toNat_of_nonneg (by omega)]

theorem temperatureByte_outOfRange {t : Int} (h : t < 16 ∨ 31 < t) : temperatureByte t = .error (.temperature t) :=
  if_neg (by omega)

/-! ## BUILD from its fields -/

section
variable {en : Bool} {mode : ModeSym} {temp : Int} {fan : FanSym} {vane : VaneSym} {m t f v : Byte} {e : InvalidField}

theorem buildPayload_mode_error (hm : modeByte mode = .error e) : buildPayload en mode temp fan vane = .error e := by
  simp only [buildPayload, hm]

theorem buildPayload_temperature_error (hm : modeByte mode = .ok m) (ht : temperatureByte temp = .error e) :
    buildPayload en mode temp fan vane = .error e := by
  simp only [buildPayload, hm, ht]

theorem buildPayload_fan_error (hm : modeByte mode = .ok m) (ht : temperatureByte temp = .ok t) (hf : fanCode fan = .error e) :
    buildPayload en mode temp fan vane = .error e := by
  simp only [buildPayload, hm, ht, hf]

theorem buildPayload_vane_error (hm : modeByte mode = .ok m) (ht : temperatureByte temp = .ok t) (hf : fanCode fan = .ok f)
    (hv : vaneCode vane = .error e) : buildPayload en mode temp fan vane = .error e := by
  simp only [buildPayload, hm, ht, hf, hv]

theorem buildPayload_fields_ok (hm : modeByte mode = .ok m) (ht : temperatureByte temp = .ok t) (hf : fanCode fan = .ok f)
    (hv : vaneCode vane = .ok v) : buildPayload en mode temp fan vane = .ok (withChecksum (payloadBody en m t f v)) := by
  simp only [buildPayload, hm, ht, hf, hv]

/-- Whatever BUILD returns is a body with its checksum (R164, R171). -/
theorem exists_body_of_buildPayload_ok {p : List Byte} (h : buildPayload en mode temp fan vane = .ok p) :
    ∃ m t f v, p = withChecksum (payloadBody en m t f v) := by
  cases hm : modeByte mode with
  | error e => cases (buildPayload_mode_error hm).symm.trans h
  | ok m =>
    cases ht : temperatureByte temp with
    | error e => cases (buildPayload_temperature_error hm ht).symm.trans h
    | ok t =>
      cases hf : fanCode fan with
      | error e => cases (buildPayload_fan_error hm ht hf).symm.trans h
      | ok f =>
        cases hv : vaneCode vane with
        | error e => cases (buildPayload_vane_error hm ht hf hv).symm.trans h
        | ok v =>
          cases (buildPayload_fields_ok hm ht hf hv).symm.trans h
          exact ⟨m, t, f, v, rfl⟩

end

/-! ## The checksum -/

/-- The byte BUILD appends is the sum VALIDATE computes (R156, R171). -/
theorem withChecksum_eq_concat_sum (body : List Byte) : withChecksum body = body ++ [body.sum] := by
  rw [withChecksum, List.sum_eq_foldl]

/-- Any body with its checksum passes the comparison (R157, R173). -/
theorem validatePayload_withChecksum {s : State} {body : List Byte} (hp : payloadBytes s = withChecksum body) :
    (validatePayload s).chkResult = .matched := by
  rw [withChecksum_eq_concat_sum] at hp
  have hlen : s.payLen = body.length + 1 := by simpa [payloadBytes] using congrArg List.length hp
  have hlast : readPayload s (s.payLen - 1) = body.sum := by
    have hsplit := (payloadBytes_eq_concat (by omega)).symm.trans hp
    exact (List.append_singleton_inj.1 hsplit).2
  rw [validatePayload_compare (by omega), hp, checksum_concat, hlast]
  exact if_pos rfl

/-- Settles O42: the payload is a body of 13 bytes with its checksum, and accepting VALIDATE leaves it as it is. -/
theorem builtPayloadsValidate : Obligations.BuiltPayloadsValidate := by
  intro en mode temp fan vane p s hbuild hb hp
  obtain ⟨m, t, f, v, rfl⟩ := exists_body_of_buildPayload_ok hbuild
  exact ⟨rfl, _, exec_validate hb, validatePayload_withChecksum (s := validateIssued s) hp⟩

/-- Settles O43: every field is known, and the checksum reduced once at the end is that of the accumulator. -/
theorem buildLayout : Obligations.BuildLayout := by
  intro en temp hlo hhi m hm f hf v hv body
  rw [buildPayload_fields_ok (modeByte_known m hm) (temperatureByte_inRange hlo hhi) (fanCode_known f hf) (vaneCode_known v hv),
    withChecksum_eq_concat_sum, sum_bytes_eq_ofNat]
  rfl

/-- Settles O44: one bad field at a time, the fields before it being good. -/
theorem buildReportsFirstBadField : Obligations.BuildReportsFirstBadField := by
  intro en mode temp fan vane
  refine ⟨?mode, fun hmode htemp => ?temperature, fun hmode hlo hhi => ⟨?fan, fun hfan => ?vane⟩⟩
  case mode =>
    rintro n rfl
    exact buildPayload_mode_error rfl
  case temperature =>
    obtain ⟨m, hm⟩ := exists_modeByte_eq_ok hmode
    exact buildPayload_temperature_error hm (temperatureByte_outOfRange htemp)
  case fan =>
    obtain ⟨m, hm⟩ := exists_modeByte_eq_ok hmode
    rintro n rfl
    exact buildPayload_fan_error hm (temperatureByte_inRange hlo hhi) rfl
  case vane =>
    obtain ⟨m, hm⟩ := exists_modeByte_eq_ok hmode
    obtain ⟨f, hf⟩ := exists_fanCode_eq_ok hfan
    rintro n rfl
    exact buildPayload_vane_error hm (temperatureByte_inRange hlo hhi) hf rfl

end Sys2Proof.Machine
end

section
/-! PROOFS. Rules common to all operations: an engine that is not busy starts nothing by itself, and the only move that answers no
next state is a host read of an element that does not exist (46_common_semantics.md rules R177, R179). -/

namespace Sys2Proof.Machine

/-! ## An engine that is not busy -/

/-- With neither ENC nor CAP at work the engine's own move changes nothing (R177). -/
theorem engineStep_idle {s : State} (hc : s.capState = .idle) (he : s.encPhase = .idle) : engineStep s = s :=
  (if_neg (not_not.2 he)).trans (if_neg (not_not.2 hc))

/-- Settles O50: with BUSY = 0 no unit is at work, so neither the engine's move nor a sample finds one. -/
theorem idleEngineStays : Obligations.IdleEngineStays := by
  intro s hi hb
  obtain ⟨hc, he⟩ := hi.units_idle hb
  refine ⟨fun hnil => ?_, fun v dt l hl => ?_⟩
  · rw [step_nil hnil, engineStep_idle hc he]
  · rw [step_cons hl]
    exact congrArg Host.Outcome.next (lineSample_idle (s := { s with agenda := l }) v dt hc)

/-! ## What stops a run -/

/-- A move answers a next state, or it is a host read of an element that does not exist (log 13). -/
theorem takeEvent_cases (e : Event) (s : State) :
    (∃ t, takeEvent e s = .next t) ∨
    (∃ i, takeEvent e s = .fault (.noSuchElement i) ∧
      ((e = .read (.trainEntry i) ∧ 256 ≤ i) ∨ (e = .read (.payByte i) ∧ 15 ≤ i))) := by
  cases e with
  | command w => exact .inl (commandWrite_answers_next w s)
  | read r =>
    rcases hostRead_cases r s with ⟨d, k, h⟩ | ⟨i, h⟩
    · exact .inl ⟨_, h⟩
    · rcases hostRead_fault h with ⟨rfl, hge⟩ | ⟨rfl, hge⟩
      · exact .inr ⟨i, h, .inl ⟨rfl, hge⟩⟩
      · exact .inr ⟨i, h, .inr ⟨rfl, hge⟩⟩
  | write | sample | engine | reset => exact .inl ⟨_, rfl⟩

/-- Settles O58: a step is its move, made in the state without it. -/
theorem onlyBadReadsStop : Obligations.OnlyBadReadsStop := fun s => takeEvent_cases (nextMove s) (afterMove s)

end Sys2Proof.Machine
end

section
/-! PROOFS. What reset does not reach: the events already emitted and the environment's moves (70_reset_and_hazards.md rule R202). -/

namespace Sys2Proof.Machine

/-- Reset moves OUT to the end of the history and leaves OUT empty (log 9). -/
theorem resetEngine_emitted (s : State) : (resetEngine s).past ++ (resetEngine s).out = s.past ++ s.out :=
  calc (resetEngine s).past ++ (resetEngine s).out
    _ = (s.past ++ s.out) ++ [] := rfl
    _ = s.past ++ s.out := List.append_nil _

/-- Settles O49: the step is the reset of the state without its first move. -/
theorem resetKeepsEmittedEvents : Obligations.ResetKeepsEmittedEvents := by
  intro s l hl
  exact ⟨_, step_cons hl, resetEngine_emitted { s with agenda := l }, rfl⟩

end Sys2Proof.Machine
end
